-- ==== Sys2Proof/Word.lean ====
section
/-! DEFINITION. The words of the machine, and the containers of a fixed number of like cells (00_scope.md rules R7, R10,
R11, R14). -/

namespace Sys2Proof

/-- One byte of an operand image (20_memory.md rule R53). -/
abbrev Byte := BitVec 8

/-- One 16-bit record or frame word (20_memory.md rule R50). -/
abbrev Word := BitVec 16

/-- One 32-bit command word (30_encoding.md rule R100). -/
abbrev CmdWord := BitVec 32

/-- The result type of EXTRACT (40_extract.md rule R121) and the register type of `CAL.offset_ref` (10_state.md rule R30). -/
abbrev I32 := BitVec 32

/-- An `f64` as its 64-bit pattern (00_scope.md rule R11). -/
abbrev F64 := BitVec 64

/-- A pattern placed with its lowest bit at `lo` of a `w`-bit pattern. -/
def placed {n : Nat} (w : Nat) (v : BitVec n) (lo : Nat) : BitVec w := v.setWidth w <<< lo

/-- A pixel by its row-major index (00_scope.md rule R14). -/
abbrev Pixel := Fin 768

/-- `row = i div 32` (00_scope.md rule R14). -/
def Pixel.row (i : Pixel) : Nat := i.val / 32

/-- `col = i mod 32` (00_scope.md rule R14). -/
def Pixel.col (i : Pixel) : Nat := i.val % 32

/-- A fixed number of like cells: a list that carries its own length. -/
structure Cells (n : Nat) (α : Type) where
  toList : List α
  length_toList : toList.length = n
  deriving DecidableEq, Repr

/-- The cells given by a function of the index. -/
def Cells.ofFn {n : Nat} {α : Type} (f : Fin n → α) : Cells n α :=
  ⟨List.ofFn f, List.length_ofFn⟩

/-- The cell at an index. -/
def Cells.get {n : Nat} {α : Type} (c : Cells n α) (i : Fin n) : α :=
  c.toList.get (i.cast c.length_toList.symm)

/-- The cells with one of them replaced. -/
def Cells.put {n : Nat} {α : Type} (c : Cells n α) (i : Fin n) (v : α) : Cells n α :=
  Cells.ofFn fun j => if j = i then v else c.get j

/-- Four cells addressed by row parity and column parity (10_state.md rule R28). -/
structure Quad (α : Type) where
  at00 : α
  at01 : α
  at10 : α
  at11 : α
  deriving DecidableEq, Repr

/-- The cell `[pr][pc]`. -/
def Quad.get {α : Type} (q : Quad α) (pr pc : Fin 2) : α :=
  if pr = 0 then (if pc = 0 then q.at00 else q.at01) else (if pc = 0 then q.at10 else q.at11)

/-- The quad with the cell `[pr][pc]` replaced. -/
def Quad.set {α : Type} (q : Quad α) (pr pc : Fin 2) (v : α) : Quad α :=
  if pr = 0 then (if pc = 0 then { q with at00 := v } else { q with at01 := v })
  else (if pc = 0 then { q with at10 := v } else { q with at11 := v })

end Sys2Proof
end

