-- ==== Sys2Proof/Syntax.lean ====
section
/-! DEFINITION. The instructions: one constructor per row of spec/opcode_table.json. Three commands and two pseudo-operations
are 32-bit command words (30_encoding.md rules R100 to R107); the other rows are 16-bit record words of the two images
(30_encoding.md rules R80 to R98), held as the bit patterns of their sub-fields, lowest bits first. An array row carries
the number of its word within the array. -/

namespace Sys2Proof

inductive Instr where
  /-- EXTRACT (30_encoding.md rule R101). -/
  | extract (signed : Bool) (width : BitVec 5) (start : BitVec 4) (word : Word)
  /-- DECODE (30_encoding.md rule R102). -/
  | decode (skip : Bool)
  /-- COMPENSATE (30_encoding.md rule R103). -/
  | compensate
  /-- SEXT6 (30_encoding.md rule R107). -/
  | sext6 (v : BitVec 6)
  /-- NIBBLE (30_encoding.md rule R107). -/
  | nibble (w : Word) (j : BitVec 2)
  /-- Word 0x2410 (30_encoding.md rule R84). -/
  | w2410 (remScale colScale rowScale aPtatEE : BitVec 4)
  /-- Word 0x2420 (30_encoding.md rule R85). -/
  | w2420 (aRemScale aColScale aRowScale aScaleEE : BitVec 4)
  /-- Word 0x2432 (30_encoding.md rule R86). -/
  | w2432 (ktLow : BitVec 8) (ktMid : BitVec 2) (kvPtatEE : BitVec 6)
  /-- Word 0x2433 (30_encoding.md rule R87). -/
  | w2433 (vdd25EE kVddEE : BitVec 8)
  /-- Word 0x2434 (30_encoding.md rule R88). -/
  | w2434 (kvN0 kvN1 kvN2 kvN3 : BitVec 4)
  /-- Word 0x2436 (30_encoding.md rule R89). -/
  | w2436 (ktaB0 ktaB1 : BitVec 8)
  /-- Word 0x2437 (30_encoding.md rule R89). -/
  | w2437 (ktaB2 ktaB3 : BitVec 8)
  /-- Word 0x2438 (30_encoding.md rule R90). -/
  | w2438 (unused kvScale kTaScale1EE kTaScale2 : BitVec 4)
  /-- Word 0x243C (30_encoding.md rule R91). -/
  | w243C (tgc ksTa : BitVec 8)
  /-- PTAT_25 (30_encoding.md rule R92). -/
  | ptat25 (v : Word)
  /-- ee_GAIN (30_encoding.md rule R92). -/
  | eeGain (v : Word)
  /-- OFFSET_AVG (30_encoding.md rule R93). -/
  | offsetAvg (v : Word)
  /-- ALPHA_AVG (30_encoding.md rule R93). -/
  | alphaAvg (v : Word)
  /-- OCC_ROW, word `k` of the array (30_encoding.md rule R94). -/
  | occRow (k : Fin 6) (a b c d : BitVec 4)
  /-- OCC_COL, word `k` of the array (30_encoding.md rule R94). -/
  | occCol (k : Fin 8) (a b c d : BitVec 4)
  /-- ACC_ROW, word `k` of the array (30_encoding.md rule R95). -/
  | accRow (k : Fin 6) (a b c d : BitVec 4)
  /-- ACC_COL, word `k` of the array (30_encoding.md rule R95). -/
  | accCol (k : Fin 8) (a b c d : BitVec 4)
  /-- PIXWORD of pixel `i` (30_encoding.md rule R96). -/
  | pixword (i : Pixel) (outlier : BitVec 1) (kTaIncrement : BitVec 3) (alphaLo : BitVec 4) (alphaHi : BitVec 2)
      (pixOff : BitVec 6)
  /-- RAW_PIXEL of pixel `i` (30_encoding.md rule R98). -/
  | rawPixel (i : Pixel) (v : Word)
  /-- AMBIENT_PROXY_RAW (30_encoding.md rule R98). -/
  | ambientProxyRaw (v : Word)
  /-- VDD_RAW (30_encoding.md rule R98). -/
  | vddRaw (v : Word)
  /-- V_BE (30_encoding.md rule R98). -/
  | vBe (v : Word)
  /-- GAIN_RAM (30_encoding.md rule R98). -/
  | gainRam (v : Word)
  /-- STATUS_WORD: bit 0, and the fifteen ignored bits above it (30_encoding.md rules R98, R99). -/
  | statusWord (subpage : BitVec 1) (ignored : BitVec 15)
  deriving DecidableEq, Repr

end Sys2Proof
end

