-- ==== Sys2Proof/WellFormed.lean ====
section
/-! DEFINITION. Which terms of `Instr` are an instruction's own spelling. Every field already has exactly the width of its
encoding, so the one thing left to check is that a command word has one spelling: a word of the SEXT6 row or of the
NIBBLE row (30_encoding.md rule R107) is spelt by that row and not by EXTRACT. -/

namespace Sys2Proof

/-- The operands of an EXTRACT word that the SEXT6 row of spec/opcode_table.json matches. -/
def isSext6Form (signed : Bool) (width : BitVec 5) (start : BitVec 4) (word : Word) : Bool :=
  signed && width == 6#5 && start == 0#4 && word.extractLsb' 6 10 == 0#10

/-- The operands of an EXTRACT word that the NIBBLE row of spec/opcode_table.json matches. -/
def isNibbleForm (signed : Bool) (width : BitVec 5) (start : BitVec 4) : Bool :=
  signed && width == 4#5 && start.extractLsb' 0 2 == 0#2

/-- The check of one instruction term. -/
def Instr.wf : Instr → Bool
  | .extract signed width start word => !isSext6Form signed width start word && !isNibbleForm signed width start
  | .decode _ => true
  | .compensate => true
  | .sext6 _ => true
  | .nibble _ _ => true
  | .w2410 _ _ _ _ => true
  | .w2420 _ _ _ _ => true
  | .w2432 _ _ _ => true
  | .w2433 _ _ => true
  | .w2434 _ _ _ _ => true
  | .w2436 _ _ => true
  | .w2437 _ _ => true
  | .w2438 _ _ _ _ => true
  | .w243C _ _ => true
  | .ptat25 _ => true
  | .eeGain _ => true
  | .offsetAvg _ => true
  | .alphaAvg _ => true
  | .occRow _ _ _ _ _ => true
  | .occCol _ _ _ _ _ => true
  | .accRow _ _ _ _ _ => true
  | .accCol _ _ _ _ _ => true
  | .pixword _ _ _ _ _ _ => true
  | .rawPixel _ _ => true
  | .ambientProxyRaw _ => true
  | .vddRaw _ => true
  | .vBe _ => true
  | .gainRam _ => true
  | .statusWord _ _ => true

/-- The instruction is in its own spelling. -/
abbrev Instr.WellFormed (i : Instr) : Prop := i.wf = true

end Sys2Proof
end

