-- ==== Sys2Proof/Decode.lean ====
section
/-! DEFINITION. The decoder, total on every command word and every record word, rejecting by name, and after it the encoder
(30_encoding.md). A command word carries its own opcode; a record word does not, its row is known by the address it is
read from, so a record word is decoded together with its row. -/

namespace Sys2Proof

/-- A row of the record-word part of spec/opcode_table.json, with the number of the word for the array rows. -/
inductive RecordRow where
  | w2410 | w2420 | w2432 | w2433 | w2434 | w2436 | w2437 | w2438 | w243C
  | ptat25 | eeGain | offsetAvg | alphaAvg
  | occRow (k : Fin 6) | occCol (k : Fin 8) | accRow (k : Fin 6) | accCol (k : Fin 8)
  | pixword (i : Pixel)
  | rawPixel (i : Pixel) | ambientProxyRaw | vddRaw | vBe | gainRam | statusWord
  deriving DecidableEq, Repr

/-- The code of an instruction: a 32-bit command word, or a 16-bit record word of a row. -/
inductive Code where
  | command (cw : CmdWord)
  | record (row : RecordRow) (w : Word)
  deriving DecidableEq, Repr

/-- Why a command word is no instruction (60_exceptions.md rule R257). -/
inductive Reject where
  /-- `OPC` is 0x0 or 0x4 to 0xF (30_encoding.md rule R104). -/
  | reservedOpcode (opc : BitVec 4)
  /-- A must-be-zero bit is set (30_encoding.md rule R105). -/
  | reservedBits (opc : BitVec 4)
  deriving DecidableEq, Repr

/-- An EXTRACT word by its operands, spelt by the pseudo-operation's row where one matches (30_encoding.md rule R107). -/
def extractSpelling (signed : Bool) (width : BitVec 5) (start : BitVec 4) (word : Word) : Instr :=
  if isSext6Form signed width start word then .sext6 (word.extractLsb' 0 6)
  else if isNibbleForm signed width start then .nibble word (start.extractLsb' 2 2)
  else .extract signed width start word

/-- The command decoder: the opcode first, then the must-be-zero bits (30_encoding.md rules R100 to R105,
60_exceptions.md rule R263). -/
def decodeCommand (cw : CmdWord) : Except Reject Instr :=
  let opc := cw.extractLsb' 28 4
  if opc = 1#4 then
    if cw.extractLsb' 16 2 = 0#2 then
      .ok (extractSpelling (cw.getLsbD 27) (cw.extractLsb' 22 5) (cw.extractLsb' 18 4) (cw.extractLsb' 0 16))
    else .error (.reservedBits opc)
  else if opc = 2#4 then
    if cw.extractLsb' 0 27 = 0#27 then .ok (.decode (cw.getLsbD 27)) else .error (.reservedBits opc)
  else if opc = 3#4 then
    if cw.extractLsb' 0 28 = 0#28 then .ok .compensate else .error (.reservedBits opc)
  else .error (.reservedOpcode opc)

/-- The four sub-fields of a W4444 word, lowest first (30_encoding.md rule R82). -/
def split4444 (w : Word) (mk : BitVec 4 → BitVec 4 → BitVec 4 → BitVec 4 → Instr) : Instr :=
  mk (w.extractLsb' 0 4) (w.extractLsb' 4 4) (w.extractLsb' 8 4) (w.extractLsb' 12 4)

/-- The two sub-fields of a W8_8 word, lowest first (30_encoding.md rule R82). -/
def split88 (w : Word) (mk : BitVec 8 → BitVec 8 → Instr) : Instr :=
  mk (w.extractLsb' 0 8) (w.extractLsb' 8 8)

/-- The record decoder: every word of every row decodes (30_encoding.md rules R82 to R99). -/
def decodeRow (row : RecordRow) (w : Word) : Instr :=
  match row with
  | .w2410 => split4444 w .w2410
  | .w2420 => split4444 w .w2420
  | .w2432 => .w2432 (w.extractLsb' 0 8) (w.extractLsb' 8 2) (w.extractLsb' 10 6)
  | .w2433 => split88 w .w2433
  | .w2434 => split4444 w .w2434
  | .w2436 => split88 w .w2436
  | .w2437 => split88 w .w2437
  | .w2438 => split4444 w .w2438
  | .w243C => split88 w .w243C
  | .ptat25 => .ptat25 w
  | .eeGain => .eeGain w
  | .offsetAvg => .offsetAvg w
  | .alphaAvg => .alphaAvg w
  | .occRow k => split4444 w (.occRow k)
  | .occCol k => split4444 w (.occCol k)
  | .accRow k => split4444 w (.accRow k)
  | .accCol k => split4444 w (.accCol k)
  | .pixword i =>
    .pixword i (w.extractLsb' 0 1) (w.extractLsb' 1 3) (w.extractLsb' 4 4) (w.extractLsb' 8 2) (w.extractLsb' 10 6)
  | .rawPixel i => .rawPixel i w
  | .ambientProxyRaw => .ambientProxyRaw w
  | .vddRaw => .vddRaw w
  | .vBe => .vBe w
  | .gainRam => .gainRam w
  | .statusWord => .statusWord (w.extractLsb' 0 1) (w.extractLsb' 1 15)

/-- The decoder of a code. -/
def decode : Code → Except Reject Instr
  | .command cw => decodeCommand cw
  | .record row w => .ok (decodeRow row w)

/-- The command word of an EXTRACT (30_encoding.md rule R101). -/
def encodeExtract (signed : Bool) (width : BitVec 5) (start : BitVec 4) (word : Word) : CmdWord :=
  placed 32 1#4 28 ||| placed 32 (BitVec.ofBool signed) 27 ||| placed 32 width 22 ||| placed 32 start 18 |||
    placed 32 word 0

/-- A W4444 word from its sub-fields, lowest first. -/
def join4444 (a b c d : BitVec 4) : Word :=
  placed 16 d 12 ||| placed 16 c 8 ||| placed 16 b 4 ||| placed 16 a 0

/-- A W8_8 word from its sub-fields, lowest first. -/
def join88 (l h : BitVec 8) : Word := placed 16 h 8 ||| placed 16 l 0

/-- The encoder (30_encoding.md rules R82 to R107). -/
def encode : Instr → Code
  | .extract signed width start word => .command (encodeExtract signed width start word)
  | .decode skip => .command (placed 32 2#4 28 ||| placed 32 (BitVec.ofBool skip) 27)
  | .compensate => .command (placed 32 3#4 28)
  | .sext6 v => .command (encodeExtract true 6#5 0#4 (v.setWidth 16))
  | .nibble w j => .command (encodeExtract true 4#5 (placed 4 j 2) w)
  | .w2410 a b c d => .record .w2410 (join4444 a b c d)
  | .w2420 a b c d => .record .w2420 (join4444 a b c d)
  | .w2432 l m h => .record .w2432 (placed 16 h 10 ||| placed 16 m 8 ||| placed 16 l 0)
  | .w2433 l h => .record .w2433 (join88 l h)
  | .w2434 a b c d => .record .w2434 (join4444 a b c d)
  | .w2436 l h => .record .w2436 (join88 l h)
  | .w2437 l h => .record .w2437 (join88 l h)
  | .w2438 a b c d => .record .w2438 (join4444 a b c d)
  | .w243C l h => .record .w243C (join88 l h)
  | .ptat25 v => .record .ptat25 v
  | .eeGain v => .record .eeGain v
  | .offsetAvg v => .record .offsetAvg v
  | .alphaAvg v => .record .alphaAvg v
  | .occRow k a b c d => .record (.occRow k) (join4444 a b c d)
  | .occCol k a b c d => .record (.occCol k) (join4444 a b c d)
  | .accRow k a b c d => .record (.accRow k) (join4444 a b c d)
  | .accCol k a b c d => .record (.accCol k) (join4444 a b c d)
  | .pixword i o k l h p => .record (.pixword i) (placed 16 p 10 ||| placed 16 h 8 ||| placed 16 l 4 ||| placed 16 k 1 ||| placed 16 o 0)
  | .rawPixel i v => .record (.rawPixel i) v
  | .ambientProxyRaw v => .record .ambientProxyRaw v
  | .vddRaw v => .record .vddRaw v
  | .vBe v => .record .vBe v
  | .gainRam v => .record .gainRam v
  | .statusWord s r => .record .statusWord (placed 16 r 1 ||| placed 16 s 0)

/-- The command word made of the low `nbits` bits of `w`, every bit above them zero. -/
def tableCommand (nbits w : Nat) : CmdWord := BitVec.ofNat 32 (w % 2 ^ nbits)

/-- What the decoder reads from the bits of one opcode-table row. A 16-bit record word carries no opcode: read as a command
word it has `OPC` 0, which is reserved, so the answer is `none`. -/
def decodeTableWord (nbits w : Nat) : Option Instr :=
  match decodeCommand (tableCommand nbits w) with
  | .ok i => some i
  | .error _ => none

end Sys2Proof
end

