-- ==== Sys2Proof/Config.lean ====
section
/-! DEFINITION. The configuration record CFG (00_scope.md rules R7, R8) as a type, and the free values: opaque constants
without a body, of which nothing can be computed. -/

namespace Sys2Proof

/-- A sub-field of a 16-bit word: the last three members of a field tuple (30_encoding.md rule R80). -/
structure Slice where
  start : Nat
  width : Nat
  signed : Bool
  deriving DecidableEq, Repr

/-- A field tuple `(address, start_bit, width, signed)` (30_encoding.md rule R80). -/
structure FieldTuple where
  addr : Nat
  slice : Slice
  deriving DecidableEq, Repr

/-- `CFG.FT`, the scalar fields, in the order of 30_encoding.md rules R84 to R92. -/
structure FieldTable where
  remScale : FieldTuple
  colScale : FieldTuple
  rowScale : FieldTuple
  aPtatEE : FieldTuple
  aRemScale : FieldTuple
  aColScale : FieldTuple
  aRowScale : FieldTuple
  aScaleEE : FieldTuple
  ktLow : FieldTuple
  ktMid : FieldTuple
  kvPtatEE : FieldTuple
  vdd25EE : FieldTuple
  kVddEE : FieldTuple
  kvN0 : FieldTuple
  kvN1 : FieldTuple
  kvN2 : FieldTuple
  kvN3 : FieldTuple
  ktaB0 : FieldTuple
  ktaB1 : FieldTuple
  ktaB2 : FieldTuple
  ktaB3 : FieldTuple
  unused2438 : FieldTuple
  kvScale : FieldTuple
  kTaScale1EE : FieldTuple
  kTaScale2 : FieldTuple
  tgc : FieldTuple
  ksTa : FieldTuple
  ptat25 : FieldTuple
  eeGain : FieldTuple
  deriving DecidableEq, Repr

/-- `CFG.FT`, the sub-fields of the per-pixel word (30_encoding.md rule R96). -/
structure PixTable where
  outlier : Slice
  kTaIncrement : Slice
  alphaLo : Slice
  alphaHi : Slice
  pixOff : Slice
  deriving DecidableEq, Repr

/-- `CFG.FT`, the fields of the EEPROM image whose address is a parameter of its own (30_encoding.md rules R93 to R95): the
sub-field of each average and of each element of the four packed arrays. -/
structure ArrayTable where
  offsetAvg : Slice
  aAvg : Slice
  offsetRow : Cells 24 Slice
  offsetCol : Cells 32 Slice
  aRow : Cells 24 Slice
  aCol : Cells 32 Slice
  deriving DecidableEq, Repr

/-- `CFG.FT`, the fields of a frame (30_encoding.md rule R98). The status word is no field of the table: all its 16 bits are read,
not through the accessor. -/
structure FrameTable where
  rawPixel : Slice
  ambientProxyRaw : Slice
  vddRaw : Slice
  vBe : Slice
  gainRam : Slice
  deriving DecidableEq, Repr

/-- `CFG.NUMERICS`, the binary64 arithmetic record (00_scope.md rule R8): its default, or another, by number, of which nothing is
known (log 7). -/
inductive Numerics where
  | binary64
  | other (n : Nat)
  deriving DecidableEq, Repr

/-- Which sub-field feeds which parity cell: the cell of sub-field `n` (30_encoding.md rules R88, R89). -/
abbrev ParityMap := Cells 4 (Fin 2 × Fin 2)

/-- The configuration record, but for the reset draws (`ResetDraw`) (00_scope.md rule R8). `CFG.FT` is `ft`, `arr`, `pix` and
`frm`. -/
structure Config where
  /-- `EXTENDED`, the strap (OPEN). -/
  extended : Bool
  /-- `ID_SIG` (OPEN). -/
  idSig : Cells 6 Byte
  /-- `CFG_SIG` (OPEN). -/
  cfgSig : Cells 8 Byte
  idOff : Nat
  cfgOff : Nat
  ft : FieldTable
  arr : ArrayTable
  pix : PixTable
  frm : FrameTable
  aOffsetAvg : Nat
  aAlphaAvg : Nat
  aOccRow : Nat
  aOccCol : Nat
  aAccRow : Nat
  aAccCol : Nat
  aPix : Nat
  kvMap : ParityMap
  ktaMap : ParityMap
  aVddRaw : Nat
  aVBe : Nat
  aGainRam : Nat
  numerics : Numerics
  deriving DecidableEq, Repr

/-- The operations of `NUMERICS` on two `f64`. -/
inductive NumOp where
  | add | sub | mul | div | pow
  deriving DecidableEq, Repr

/-- The board's strap `CFG.EXTENDED`: OPEN (00_scope.md rule R8, log 2). -/
opaque Config.strapExtended : Bool
/-- The bytes of the board's `CFG.ID_SIG`: OPEN (00_scope.md rule R8, log 2). -/
opaque Config.idSigByte : Fin 6 → Byte
/-- The bytes of the board's `CFG.CFG_SIG`: OPEN (00_scope.md rule R8, log 2). -/
opaque Config.cfgSigByte : Fin 8 → Byte

/-- `NUMERICS` number `n` other than the default: its operations on two `f64` (log 7). -/
opaque Config.otherOp : Nat → NumOp → F64 → F64 → F64
/-- `NUMERICS` number `n` other than the default: `of_int` (log 7). -/
opaque Config.otherOfInt : Nat → Int → F64
/-- `NUMERICS` number `n` other than the default: the comparison `<` (43_track.md rule R225, log 7). -/
opaque Config.otherLt : Nat → F64 → F64 → Bool
/-- `NUMERICS` number `n` other than the default: the comparison `>` (43_track.md rule R225, log 7). -/
opaque Config.otherGt : Nat → F64 → F64 → Bool
/-- `NUMERICS.pow` where the spec states no result (93_implementation_defined.md U8, log 8). -/
opaque Config.freePow : F64 → F64 → F64
/-- Sign and payload of the NaN that an operation answers on these operands (log 9). -/
opaque Config.nanBits : NumOp → F64 → F64 → BitVec 52

/-- `a << n` for a negative `n`, which the spec does not define (00_scope.md rule R10, log 11). -/
opaque Config.freeShift : Int → Int → Int
/-- `2^n` in an `f64` context for an `n` outside [0, 60] (00_scope.md rule R11, log 11). -/
opaque Config.freePow2 : Int → F64
/-- What a register, or a temporary the rule gives a type, of `w` bits holds when a value outside its range is stored (00_scope.md rule R10, log 11). -/
opaque Config.freeRegister : (w : Nat) → Int → BitVec w
/-- `(hi << sh) | lo` for a negative part, or outside the range that rule R108 of 30_encoding.md states (log 11). -/
opaque Config.freeAssembled : Nat → Int → Int → Int
/-- SEXT6 of a number outside [0, 63] (40_extract.md rule R124, log 11). -/
opaque Config.freeSext6 : Int → Int
/-- The byte at an offset past the end of an image of the given length (41_decode.md rule R143, log 11). -/
opaque Config.freeImageByte : Nat → Nat → Byte
/-- A cell of `K_Ta_2x2` that no sub-field feeds (41_decode.md rule R153, log 11). -/
opaque Config.unfedKTa : Fin 4 → Int
/-- A cell of `K_V` that no sub-field feeds (41_decode.md rule R152, log 11). -/
opaque Config.unfedKV : Fin 4 → F64

/-- `CFG.TO_INIT` at the first reset (10_state.md rule R39, log 3). -/
opaque Config.toInit : Pixel → F64
/-- The x, y of the three `CFG.NP_INIT` records at the first reset (log 3). -/
opaque Config.npInitXY : Fin 3 → BitVec 8 × BitVec 8
/-- The temperatures of the three `CFG.NP_INIT` records at the first reset (log 3). -/
opaque Config.npInitTemp : Fin 3 → F64
/-- `CFG.CAL_INIT` at the first reset, `K_Vdd` and `Vdd_25` (log 3). -/
opaque Config.calInit8 : Fin 2 → BitVec 8
/-- `CFG.CAL_INIT` at the first reset, `V_PTAT_25` and `gain_ee` (log 3). -/
opaque Config.calInit16 : Fin 2 → BitVec 16
/-- `CFG.CAL_INIT` at the first reset, `a_PTAT`, `K_V_PTAT`, `K_T_PTAT` and the four `K_V` (log 3). -/
opaque Config.calInitF64 : Fin 7 → F64
/-- `CFG.CAL_INIT` at the first reset, `K_Ta` (log 3). -/
opaque Config.kTaInit : Pixel → F64
/-- `CFG.CAL_INIT` at the first reset, `offset_ref` (log 3). -/
opaque Config.offsetRefInit : Pixel → I32
/-- `CFG.CAL_INIT` at the first reset, `a_ref` (log 3). -/
opaque Config.aRefInit : Pixel → F64
/-- The integer temporaries at the first reset: file number and index (log 6). -/
opaque Config.workInit : Nat → Nat → Int
/-- The staged scalars at the first reset, 8-bit ones (log 6). -/
opaque Config.stagedInit8 : Fin 2 → BitVec 8
/-- The staged scalars at the first reset, 16-bit ones (log 6). -/
opaque Config.stagedInit16 : Fin 2 → BitVec 16
/-- The staged scalars at the first reset, `f64` ones (log 6). -/
opaque Config.stagedInitF64 : Fin 7 → F64

end Sys2Proof
end

