-- ==== Sys2Proof/Machine/Defaults.lean ====
section
/-! DEFINITION. The defaults of the configuration record (00_scope.md rules R7, R8; 30_encoding.md rules R84 to R97). -/

namespace Sys2Proof.Machine

/-- An unsigned field tuple. -/
def uField (addr start width : Nat) : FieldTuple := ⟨addr, ⟨start, width, false⟩⟩

/-- A signed field tuple. -/
def sField (addr start width : Nat) : FieldTuple := ⟨addr, ⟨start, width, true⟩⟩

/-- The default field table, one rule per word (30_encoding.md rules R84 to R92). -/
def defaultFieldTable : FieldTable where
  remScale := uField 0x2410 0 4
  colScale := uField 0x2410 4 4
  rowScale := uField 0x2410 8 4
  aPtatEE := uField 0x2410 12 4
  aRemScale := uField 0x2420 0 4
  aColScale := uField 0x2420 4 4
  aRowScale := uField 0x2420 8 4
  aScaleEE := uField 0x2420 12 4
  ktLow := uField 0x2432 0 8
  ktMid := uField 0x2432 8 2
  kvPtatEE := sField 0x2432 10 6
  vdd25EE := uField 0x2433 0 8
  kVddEE := sField 0x2433 8 8
  kvN0 := sField 0x2434 0 4
  kvN1 := sField 0x2434 4 4
  kvN2 := sField 0x2434 8 4
  kvN3 := sField 0x2434 12 4
  ktaB0 := sField 0x2436 0 8
  ktaB1 := sField 0x2436 8 8
  ktaB2 := sField 0x2437 0 8
  ktaB3 := sField 0x2437 8 8
  unused2438 := uField 0x2438 0 4
  kvScale := uField 0x2438 4 4
  kTaScale1EE := uField 0x2438 8 4
  kTaScale2 := uField 0x2438 12 4
  tgc := sField 0x243C 0 8
  ksTa := sField 0x243C 8 8
  ptat25 := sField 0x240A 0 16
  eeGain := sField 0x241A 0 16

/-- The default sub-fields of the per-pixel word (30_encoding.md rule R96). -/
def defaultPixTable : PixTable where
  outlier := ⟨0, 1, false⟩
  kTaIncrement := ⟨1, 3, true⟩
  alphaLo := ⟨4, 4, false⟩
  alphaHi := ⟨8, 2, false⟩
  pixOff := ⟨10, 6, true⟩

/-- A whole word, signed: the sub-field of every W16 field but `a_avg` (30_encoding.md rules R92, R93, R98). -/
def wholeSigned : Slice := ⟨0, 16, true⟩

/-- The default sub-field of element `n` of a packed array (30_encoding.md rules R94, R95). -/
def nibbleSlice {k : Nat} (n : Fin k) : Slice := ⟨4 * (n.val % 4), 4, true⟩

/-- The default sub-fields of the averages and the packed arrays (30_encoding.md rules R93 to R95). -/
def defaultArrayTable : ArrayTable where
  offsetAvg := wholeSigned
  aAvg := ⟨0, 16, false⟩
  offsetRow := Cells.ofFn nibbleSlice
  offsetCol := Cells.ofFn nibbleSlice
  aRow := Cells.ofFn nibbleSlice
  aCol := Cells.ofFn nibbleSlice

/-- The default sub-fields of a frame (30_encoding.md rule R98). -/
def defaultFrameTable : FrameTable where
  rawPixel := wholeSigned
  ambientProxyRaw := wholeSigned
  vddRaw := wholeSigned
  vBe := wholeSigned
  gainRam := wholeSigned

/-- The default `KV_MAP`: field n feeds `K_V[n mod 2][n div 2]` (30_encoding.md rule R88). -/
def defaultKvMap : ParityMap := ⟨[(0, 0), (1, 0), (0, 1), (1, 1)], rfl⟩

/-- The default `KTA_MAP` (30_encoding.md rule R89). -/
def defaultKtaMap : ParityMap := ⟨[(0, 1), (1, 1), (0, 0), (1, 0)], rfl⟩

/-- The configuration with every parameter that has a default at its default, and the OPEN ones given
(00_scope.md rule R8). -/
def defaultConfig (extended : Bool) (idSig : Cells 6 Byte) (cfgSig : Cells 8 Byte) : Config where
  extended := extended
  idSig := idSig
  cfgSig := cfgSig
  idOff := 0x07
  cfgOff := 0x0C
  ft := defaultFieldTable
  arr := defaultArrayTable
  pix := defaultPixTable
  frm := defaultFrameTable
  aOffsetAvg := 0x2411
  aAlphaAvg := 0x2421
  aOccRow := 0x2412
  aOccCol := 0x2418
  aAccRow := 0x2422
  aAccCol := 0x2428
  aPix := 0x2440
  kvMap := defaultKvMap
  ktaMap := defaultKtaMap
  aVddRaw := 0x072A
  aVBe := 0x0700
  aGainRam := 0x070A
  numerics := .binary64

/-- The configuration of the machine at `State.reset`: the OPEN parameters are opaque (log 2). -/
def boardConfig : Config :=
  defaultConfig Config.strapExtended (Cells.ofFn Config.idSigByte) (Cells.ofFn Config.cfgSigByte)

/-- The configuration has every parameter that has a default at its default, whatever the OPEN ones are. -/
def hasDefaults (c : Config) : Prop := c = defaultConfig c.extended c.idSig c.cfgSig

end Sys2Proof.Machine
end

