-- ==== Sys2Proof/Machine/State.lean ====
section
/-! DEFINITION. The state as plain data (10_state.md), the requests of the host, the reasons a step can stop, and the state
after reset (70_reset_and_hazards.md rule R280). -/

namespace Sys2Proof.Machine

/-- The scalar registers of `CAL` (10_state.md rules R24 to R28). -/
structure CalScalars where
  kVdd : BitVec 8
  vdd25 : BitVec 8
  aPtat : F64
  kVPtat : F64
  kTPtat : F64
  vPtat25 : BitVec 16
  gainEe : BitVec 16
  kV : Quad F64
  deriving DecidableEq, Repr

/-- The calibration register file `CAL` (10_state.md rules R24 to R32). -/
structure Cal extends CalScalars where
  kTa : Cells 768 F64
  offsetRef : Cells 768 I32
  aRef : Cells 768 F64
  deriving DecidableEq, Repr

/-- One notable pixel (10_state.md rule R34). -/
structure NotablePixel where
  x : BitVec 8
  y : BitVec 8
  temperature : F64
  deriving DecidableEq, Repr

/-- The notable-pixel registers `NP` (10_state.md rule R34). -/
structure Notables where
  min : NotablePixel
  max : NotablePixel
  center : NotablePixel
  deriving DecidableEq, Repr

/-- The status register (10_state.md rule R23). -/
structure Status where
  calValid : Bool
  wTgc : Bool
  eAor : Bool
  lastErr : BitVec 4
  deriving DecidableEq, Repr

/-- The mode register (10_state.md rule R23). -/
structure Mode where
  extended : Bool
  deriving DecidableEq, Repr

/-- The temporaries of one DECODE (10_state.md rule R35), and the `CAL` scalars staged before the commit
(41_decode.md rule R178). -/
structure DecodeTemps where
  remScale : Int
  colScale : Int
  rowScale : Int
  aPtatEE : Int
  aRemScale : Int
  aColScale : Int
  aRowScale : Int
  aScale : Int
  kvScale : Int
  kTaScale1 : Int
  kTaScale2 : Int
  tgc : Int
  ksTa : Int
  offsetAvg : Int
  aAvg : Int
  offsetRow : Cells 24 Int
  offsetCol : Cells 32 Int
  aRow : Cells 24 Int
  aCol : Cells 32 Int
  kTa2x2 : Quad Int
  outlier : Cells 768 Int
  kTaIncrement : Cells 768 Int
  alphaRem : Cells 768 Int
  pixOff : Cells 768 Int
  staged : CalScalars
  deriving DecidableEq, Repr

/-- The temporaries of one COMPENSATE that are read from record words (10_state.md rule R36). -/
structure FrameTemps where
  vddRaw : Int
  ambientProxyRaw : Int
  vBe : Int
  gainRam : Int
  subpage : Nat
  rawPixel : Cells 768 Int
  deriving DecidableEq, Repr

/-- The temporaries of the running operation (log 6). -/
structure Work where
  dec : DecodeTemps
  frm : FrameTemps
  deriving DecidableEq, Repr

/-- A byte string on the data-in port (30_encoding.md rule R100): its length, and its nonzero bytes by offset, rising. An
offset below `len` that is not listed holds the byte 00 (log 4). -/
structure Memory where
  len : Nat
  cells : List Host.Cell
  deriving DecidableEq, Repr

/-- The response record (30_encoding.md rule R106). -/
structure Response where
  code : BitVec 4
  value : I32
  diag : Cells 16 Word
  status : Status
  mode : Mode
  deriving DecidableEq, Repr

/-- The codes of a response (60_exceptions.md rule R251). -/
inductive ErrCode where
  | ok | truncatedImage | identityMismatch | incompleteFrame | notCalibrated | calLocked | illegalCommand | illegalOperand
  deriving DecidableEq, Repr

/-- What a reset leaves in the state whose reset value the spec leaves open: `CAL_INIT`, `TO_INIT`, `NP_INIT`
(10_state.md rule R39), and the temporaries (log 3, log 6). -/
structure ResetDraw where
  cal : Cal
  tObj : Cells 768 F64
  np : Notables
  work : Work
  deriving DecidableEq, Repr

/-- One thing the host does to the machine between operations (44_host_frame_source.md rule R231). -/
inductive Request where
  /-- Apply reset; the open reset values come with the event (70_reset_and_hazards.md rule R280, log 3). -/
  | reset (draw : ResetDraw)
  /-- Issue a command word with a byte string on the data-in port (30_encoding.md rule R100). -/
  | command (cw : CmdWord) (din : Memory)
  deriving DecidableEq, Repr

/-- The state of TSCD (10_state.md rule R20) with its ports, its configuration and the host's pending requests. -/
structure State where
  /-- The configuration, never written (10_state.md rule R38, log 2). -/
  cfg : Config
  mode : Mode
  status : Status
  cal : Cal
  tObj : Cells 768 F64
  np : Notables
  /-- The input buffer: empty between operations (10_state.md rule R21, log 4). -/
  din : Memory
  /-- The last response; none yet after reset (30_encoding.md rule R106, log 5). -/
  resp : Option Response
  /-- The temporaries (10_state.md rules R35, R36, log 6). -/
  work : Work
  /-- What the host has yet to do, in issue order (20_memory.md rule R63, log 1). -/
  inbox : List Request
  deriving DecidableEq, Repr

/-- Nothing stops TSCD with a fault: every exception is an error response, a next state (60_exceptions.md rules R250, R265).
So this type has no constructor. -/
inductive Fault where
  deriving DecidableEq, Repr

/-- Why the model gives a step no meaning. -/
inductive Refusal where
  /-- Raised by `exec` for an instruction without a meaning; no arm raises it. Safe: nothing is claimed of the instruction. -/
  | notModelled (mnemonic : String)
  /-- Raised by DECODE and COMPENSATE when CFG is ill-formed: "ill-formed and has no meaning in this spec" (20_memory.md rule
  R58, 40_extract.md rule R123, 93_implementation_defined.md U16, log 10). Safe: nothing is claimed of such a block. The
  default CFG is well-formed. -/
  | illFormedConfig
  deriving DecidableEq, Repr

/-- The state after reset (10_state.md rule R39, 70_reset_and_hazards.md rule R280). -/
def State.afterReset (cfg : Config) (draw : ResetDraw) (inbox : List Request) : State where
  cfg := cfg
  mode := { extended := cfg.extended }
  status := { calValid := false, wTgc := false, eAor := false, lastErr := 0#4 }
  cal := draw.cal
  tObj := draw.tObj
  np := draw.np
  din := { len := 0, cells := [] }
  resp := none
  work := draw.work
  inbox := inbox

/-- Notable pixel `n` of the first draw. -/
def freeNotable (n : Fin 3) : NotablePixel where
  x := (Config.npInitXY n).1
  y := (Config.npInitXY n).2
  temperature := Config.npInitTemp n

/-- The draw of the first reset: opaque in every cell (log 3, log 6). -/
def freeDraw : ResetDraw where
  cal :=
    { kVdd := Config.calInit8 0
      vdd25 := Config.calInit8 1
      aPtat := Config.calInitF64 0
      kVPtat := Config.calInitF64 1
      kTPtat := Config.calInitF64 2
      vPtat25 := Config.calInit16 0
      gainEe := Config.calInit16 1
      kV := ⟨Config.calInitF64 3, Config.calInitF64 4, Config.calInitF64 5, Config.calInitF64 6⟩
      kTa := Cells.ofFn Config.kTaInit
      offsetRef := Cells.ofFn Config.offsetRefInit
      aRef := Cells.ofFn Config.aRefInit }
  tObj := Cells.ofFn Config.toInit
  np := ⟨freeNotable 0, freeNotable 1, freeNotable 2⟩
  work :=
    { dec :=
        { remScale := Config.workInit 0 0
          colScale := Config.workInit 0 1
          rowScale := Config.workInit 0 2
          aPtatEE := Config.workInit 0 3
          aRemScale := Config.workInit 0 4
          aColScale := Config.workInit 0 5
          aRowScale := Config.workInit 0 6
          aScale := Config.workInit 0 7
          kvScale := Config.workInit 0 8
          kTaScale1 := Config.workInit 0 9
          kTaScale2 := Config.workInit 0 10
          tgc := Config.workInit 0 11
          ksTa := Config.workInit 0 12
          offsetAvg := Config.workInit 0 13
          aAvg := Config.workInit 0 14
          offsetRow := Cells.ofFn fun i => Config.workInit 1 i
          offsetCol := Cells.ofFn fun i => Config.workInit 2 i
          aRow := Cells.ofFn fun i => Config.workInit 3 i
          aCol := Cells.ofFn fun i => Config.workInit 4 i
          kTa2x2 := ⟨Config.workInit 5 0, Config.workInit 5 1, Config.workInit 5 2, Config.workInit 5 3⟩
          outlier := Cells.ofFn fun i => Config.workInit 6 i
          kTaIncrement := Cells.ofFn fun i => Config.workInit 7 i
          alphaRem := Cells.ofFn fun i => Config.workInit 8 i
          pixOff := Cells.ofFn fun i => Config.workInit 9 i
          staged :=
            { kVdd := Config.stagedInit8 0
              vdd25 := Config.stagedInit8 1
              aPtat := Config.stagedInitF64 0
              kVPtat := Config.stagedInitF64 1
              kTPtat := Config.stagedInitF64 2
              vPtat25 := Config.stagedInit16 0
              gainEe := Config.stagedInit16 1
              kV := ⟨Config.stagedInitF64 3, Config.stagedInitF64 4, Config.stagedInitF64 5, Config.stagedInitF64 6⟩ } }
      frm :=
        { vddRaw := Config.workInit 10 0
          ambientProxyRaw := Config.workInit 10 1
          vBe := Config.workInit 10 2
          gainRam := Config.workInit 10 3
          subpage := (Config.workInit 10 4).toNat % 2
          rawPixel := Cells.ofFn fun i => Config.workInit 11 i } }

/-- The machine right after reset, the host not having asked for anything yet. -/
def State.reset : State := State.afterReset boardConfig freeDraw []

end Sys2Proof.Machine
end

