-- ==== Sys2Proof/Machine/Ops.lean ====
section
/-! DEFINITION. The named operations over the input buffer, the ports and the status register, and the raising of an
exception. -/

namespace Sys2Proof.Machine

/-! ### Byte strings on the data-in port (30_encoding.md rule R100; 20_memory.md rules R53, R54) -/

/-- The listed byte at an offset, 00 where none is listed. -/
def cellAt : List Host.Cell → Nat → Byte
  | [], _ => 0#8
  | (a, v) :: t, j => if a = j then v else cellAt t j

/-- The cells with the byte at an offset replaced, in the canonical form. -/
def putCell : List Host.Cell → Nat → Byte → List Host.Cell
  | [], j, b => if b = 0#8 then [] else [(j, b)]
  | (a, v) :: t, j, b =>
    if j < a then (if b = 0#8 then (a, v) :: t else (j, b) :: (a, v) :: t)
    else if j = a then (if b = 0#8 then t else (j, b) :: t)
    else (a, v) :: putCell t j b

/-- The cells of a byte list whose first byte has offset `k`. -/
def cellsFrom : Nat → List Byte → List Host.Cell
  | _, [] => []
  | k, b :: t => if b = 0#8 then cellsFrom (k + 1) t else (k, b) :: cellsFrom (k + 1) t

/-- The offsets rise, from `lo` on, stay below `len`, and no listed byte is 00. -/
def cellsWf (len : Nat) : Nat → List Host.Cell → Bool
  | _, [] => true
  | lo, (a, v) :: t => decide (lo ≤ a) && decide (a < len) && v != 0#8 && cellsWf len (a + 1) t

/-- The canonical form of a byte string. -/
def Memory.wf (m : Memory) : Bool := cellsWf m.len 0 m.cells

/-- No byte string: the port between operations (10_state.md rule R21). -/
def Memory.empty : Memory := { len := 0, cells := [] }

/-- A string of `n` bytes 00. -/
def Memory.zeros (n : Nat) : Memory := { len := n, cells := [] }

/-- The byte string of a list of bytes. -/
def Memory.ofBytes (bs : List Byte) : Memory := { len := bs.length, cells := cellsFrom 0 bs }

/-- `B[j]` (20_memory.md rule R53). -/
def Memory.byte (m : Memory) (j : Nat) : Byte := cellAt m.cells j

/-- `din[j]` of the identity check (41_decode.md rule R143); free past the end of the image, where no default configuration looks
(log 11). -/
def Memory.identityByte (m : Memory) (j : Nat) : Byte := if j < m.len then m.byte j else Config.freeImageByte m.len j

/-- Word number `k` is `B[2k] + 256 * B[2k+1]` (20_memory.md rule R53). -/
def Memory.word (m : Memory) (k : Nat) : Word := 
  placed 16 (m.byte (2 * k + 1)) 8 ||| placed 16 (m.byte (2 * k)) 0

/-- The host's writing of one byte of a string it prepares; an offset past the end writes nothing. -/
def Memory.store (m : Memory) (j : Nat) (b : Byte) : Memory :=
  if j < m.len then { m with cells := putCell m.cells j b } else m

/-- The host's writing of word number `k`, low byte first. -/
def Memory.storeWord (m : Memory) (k : Nat) (w : Word) : Memory :=
  (m.store (2 * k) (w.extractLsb' 0 8)).store (2 * k + 1) (w.extractLsb' 8 8)

/-! ### Responses and exceptions (30_encoding.md rule R106; 60_exceptions.md rules R250, R251, R259, R265) -/

/-- The numeric codes (60_exceptions.md rule R251). -/
def ErrCode.bits : ErrCode → BitVec 4
  | .ok => 0#4
  | .truncatedImage => 1#4
  | .identityMismatch => 2#4
  | .incompleteFrame => 3#4
  | .notCalibrated => 4#4
  | .calLocked => 5#4
  | .illegalCommand => 6#4
  | .illegalOperand => 7#4

/-- Sixteen zero words: `diag` of every response but `IdentityMismatch` (30_encoding.md rule R106). -/
def noDiag : Cells 16 Word := Cells.ofFn fun _ => 0#16

/-- Words 0 to 15 of an image (41_decode.md rule R144). -/
def diagWords (m : Memory) : Cells 16 Word := Cells.ofFn fun k => m.word k

/-- The end of every operation: `STATUS.LAST_ERR` takes the code, the response goes out, the image is discarded
(30_encoding.md rule R106, 10_state.md rules R21, R23). -/
def State.respond (s : State) (code : ErrCode) (value : I32) (diag : Cells 16 Word) : State :=
  { s with
    status := { s.status with lastErr := code.bits }
    resp := some
      { code := code.bits
        value := value
        diag := diag
        status := { s.status with lastErr := code.bits }
        mode := s.mode }
    din := Memory.empty }

/-- `raise E(diag)`: taking an exception (60_exceptions.md rules R250, R259, R265). -/
def State.raise (s : State) (code : ErrCode) (diag : Cells 16 Word) : State := s.respond code 0#32 diag

/-- `respond OK`. -/
def State.finish (s : State) (value : I32) : State := s.respond .ok value noDiag

/-! ### The command port (30_encoding.md rule R100) -/

/-- The state in which TSCD runs the request at the head of the host's queue: its byte string is in the input buffer and
the request is gone from the queue (10_state.md rule R21). -/
def State.accept (s : State) (din : Memory) (rest : List Request) : State := { s with din := din, inbox := rest }

/-- The reset event (70_reset_and_hazards.md rule R280). -/
def State.applyReset (s : State) (draw : ResetDraw) (rest : List Request) : State :=
  State.afterReset s.cfg draw rest

/-- The answer to a command word that is no instruction (60_exceptions.md rule R257). -/
def State.rejectCommand (s : State) : State := s.raise .illegalCommand noDiag

/-- The host issues one more request, ahead of what stands in the queue. -/
def State.issueFirst (s : State) (r : Request) : State := { s with inbox := r :: s.inbox }

end Sys2Proof.Machine
end

