-- ==== Sys2Proof/Machine/Operands.lean ====
section
/-! DEFINITION. The operand forms: bit-field extraction, the two image spaces and their accessor, field tuples, and when a
configuration gives them a meaning. -/

namespace Sys2Proof.Machine

/-! ### Bit-field extraction (40_extract.md) -/

/-- The domain of EXTRACT (40_extract.md rule R123). -/
def legalSlice (start width : Nat) : Bool :=
  decide (start ≤ 15) && decide (1 ≤ width) && decide (width ≤ 16) && decide (start + width ≤ 16)

/-- EXTRACT as a 32-bit pattern, by the pseudocode of 40_extract.md rule R121. -/
def extractBits (word : Word) (start width : Nat) (signed : Bool) : I32 :=
  let v := (word.zeroExtend 32 >>> start) &&& BitVec.ofNat 32 (2 ^ width - 1)
  if signed && v.getLsbD (width - 1) then v ||| (0xFFFFFFFF#32 <<< width) else v

/-- EXTRACT read as an integer (40_extract.md rule R121). -/
def extractInt (word : Word) (start width : Nat) (signed : Bool) : Int :=
  (extractBits word start width signed).toInt

/-- SEXT6 (40_extract.md rule R124). -/
def sext6 (v : Nat) : Int := extractInt (BitVec.ofNat 16 v) 0 6 true

/-- An unsigned sub-field pattern read as an integer (00_scope.md rule R10, `zext_N`). -/
def zext {n : Nat} (v : BitVec n) : Int := v.toNat

/-- A signed sub-field pattern read as an integer (00_scope.md rule R10, `sext_N`). -/
def sext {n : Nat} (v : BitVec n) : Int := v.toInt

/-- `a << n` on integers, for `n >= 0` multiplication by a power of two (00_scope.md rule R10); free for a negative `n`, which no
default configuration gives (log 11). -/
def shl (a n : Int) : Int := if 0 ≤ n then a * 2 ^ n.toNat else Config.freeShift a n

/-- The store of an integer into a signed register of `w` bits (00_scope.md rule R10); free outside the register's range (log 11). -/
def storeSigned (w : Nat) (v : Int) : BitVec w :=
  if -2 ^ (w - 1) ≤ v ∧ v < 2 ^ (w - 1) then BitVec.ofInt w v else Config.freeRegister w v

/-- The value of a temporary that its rule gives the type `sN` (00_scope.md rule R10); free outside the type's range (log 11). -/
def asSigned (w : Nat) (v : Int) : Int := (storeSigned w v).toInt

/-- The store of an integer into an unsigned register of `w` bits. -/
def storeUnsigned (w : Nat) (v : Int) : BitVec w :=
  if 0 ≤ v ∧ v < 2 ^ w then BitVec.ofInt w v else Config.freeRegister w v

/-- `(hi << sh) | lo` of two unsigned parts (30_encoding.md rule R108); free when a part is negative (log 11). -/
def assemble (sh : Nat) (lo hi : Int) : Int :=
  if 0 ≤ lo ∧ 0 ≤ hi then ((hi.toNat <<< sh ||| lo.toNat : Nat) : Int) else Config.freeAssembled sh lo hi

/-! ### The two image spaces (20_memory.md rules R50 to R58) -/

/-- Which image space an operation reads (20_memory.md rule R50). -/
inductive Space where
  /-- The EEPROM space, of DECODE. -/
  | ee
  /-- The frame space, of COMPENSATE. -/
  | fr
  deriving DecidableEq, Repr

/-- The first logical address of a space (00_scope.md rule R7). -/
def Space.base : Space → Nat
  | .ee => 0x2400
  | .fr => 0x0400

/-- The last logical address of a space (00_scope.md rule R7). -/
def Space.top : Space → Nat
  | .ee => 0x273F
  | .fr => 0x073F

/-- The space the other operation reads. -/
def Space.other : Space → Space
  | .ee => .fr
  | .fr => .ee

/-- The address names a word of the space. -/
def Space.holds (sp : Space) (a : Nat) : Bool := decide (sp.base ≤ a) && decide (a ≤ sp.top)

/-- The address is in neither valid range (20_memory.md rule R58, third arm). -/
def outOfRange (a : Nat) : Bool := !Space.ee.holds a && !Space.fr.holds a

/-- `MemRead(a, 1)`: the word of the operand image, and 0 for an address outside both ranges (20_memory.md rule R58). An
address in the other operation's space has no meaning; no well-formed configuration has one. -/
def memRead (sp : Space) (m : Memory) (a : Nat) : Word := if sp.holds a then m.word (a - sp.base) else 0#16

/-- The status-register read: buffer word 832, not through the accessor (20_memory.md rule R59). -/
def readStatusWord (m : Memory) : Word := m.word 832

/-- FIELD: the value of a field tuple (30_encoding.md rules R80, R107). -/
def readField (sp : Space) (m : Memory) (f : FieldTuple) : Int :=
  extractInt (memRead sp m f.addr) f.slice.start f.slice.width f.slice.signed

/-! ### The fields of `CFG.FT` whose address is a parameter or a rule's own (30_encoding.md rules R93 to R98) -/

/-- `offset_avg`. -/
def offsetAvgField (c : Config) : FieldTuple := ⟨c.aOffsetAvg, c.arr.offsetAvg⟩

/-- `a_avg`. -/
def aAvgField (c : Config) : FieldTuple := ⟨c.aAlphaAvg, c.arr.aAvg⟩

/-- Element `n` of a packed array (30_encoding.md rule R94). -/
def elementField {k : Nat} (base : Nat) (slices : Cells k Slice) (n : Fin k) : FieldTuple := ⟨base + n.val / 4, slices.get n⟩

/-- A sub-field of the word of pixel `i`. -/
def pixField (c : Config) (sl : Slice) (i : Pixel) : FieldTuple := ⟨c.aPix + i.val, sl⟩

/-- `VDD_raw`. -/
def vddRawField (c : Config) : FieldTuple := ⟨c.aVddRaw, c.frm.vddRaw⟩

/-- `ambient_proxy_raw`, at `A_AMBIENT` (00_scope.md rule R7). -/
def ambientProxyRawField (c : Config) : FieldTuple := ⟨0x0720, c.frm.ambientProxyRaw⟩

/-- `V_BE`. -/
def vBeField (c : Config) : FieldTuple := ⟨c.aVBe, c.frm.vBe⟩

/-- `gain_ram`. -/
def gainRamField (c : Config) : FieldTuple := ⟨c.aGainRam, c.frm.gainRam⟩

/-- `raw_pixel[i]`. -/
def rawPixelField (c : Config) (i : Pixel) : FieldTuple := ⟨0x0400 + i.val, c.frm.rawPixel⟩

/-! ### The addresses an operation passes to the accessor -/

/-- The scalar fields of `CFG.FT`. -/
def scalarFields (t : FieldTable) : List FieldTuple :=
  [t.remScale, t.colScale, t.rowScale, t.aPtatEE, t.aRemScale, t.aColScale, t.aRowScale, t.aScaleEE,
   t.ktLow, t.ktMid, t.kvPtatEE, t.vdd25EE, t.kVddEE, t.kvN0, t.kvN1, t.kvN2, t.kvN3,
   t.ktaB0, t.ktaB1, t.ktaB2, t.ktaB3] ++
  [t.unused2438, t.kvScale, t.kTaScale1EE, t.kTaScale2, t.tgc, t.ksTa, t.ptat25, t.eeGain]

/-- The sub-fields of the per-pixel word. -/
def pixSlices (t : PixTable) : List Slice := [t.outlier, t.kTaIncrement, t.alphaLo, t.alphaHi, t.pixOff]

/-- The sub-fields of the averages and the packed arrays. -/
def arraySlices (t : ArrayTable) : List Slice :=
  [t.offsetAvg, t.aAvg] ++ t.offsetRow.toList ++ t.offsetCol.toList ++ t.aRow.toList ++ t.aCol.toList

/-- The sub-fields of a frame. -/
def frameSlices (t : FrameTable) : List Slice := [t.rawPixel, t.ambientProxyRaw, t.vddRaw, t.vBe, t.gainRam]

/-- `n` addresses from `base` on. -/
def span (base n : Nat) : List Nat := List.range' base n

/-- Every address DECODE passes to `MemRead` (41_decode.md rules R148 to R163). -/
def decodeAddrs (c : Config) : List Nat :=
  (scalarFields c.ft).map FieldTuple.addr ++ [c.aOffsetAvg, c.aAlphaAvg] ++ span c.aOccRow 6 ++ span c.aOccCol 8 ++
    span c.aAccRow 6 ++ span c.aAccCol 8 ++ span c.aPix 768

/-- Every configured address COMPENSATE passes to `MemRead`, the ambient proxy at 0x0720 (42_compensate.md rules R192,
R193). The pixel addresses `0x0400 + i` are always in range. -/
def compensateAddrs (c : Config) : List Nat := [c.aVddRaw, 0x0720, c.aVBe, c.aGainRam]

/-! ### When a configuration has a meaning (20_memory.md rule R58, 40_extract.md rule R123; log 10) -/

/-- The sub-field lies inside the word (40_extract.md rule R123). -/
def sliceLegal (sl : Slice) : Bool := legalSlice sl.start sl.width

/-- DECODE has a meaning under this configuration. -/
def decodeConfigWf (c : Config) : Bool :=
  (scalarFields c.ft).all (fun f => sliceLegal f.slice) && (arraySlices c.arr).all sliceLegal &&
    (pixSlices c.pix).all sliceLegal && (decodeAddrs c).all (fun a => !Space.fr.holds a)

/-- COMPENSATE has a meaning under this configuration. -/
def compensateConfigWf (c : Config) : Bool :=
  (frameSlices c.frm).all sliceLegal && (compensateAddrs c).all (fun a => !Space.ee.holds a)

/-! ### Where the record words of the opcode table stand (the table's addresses; 30_encoding.md rules R84 to R98) -/

/-- The logical address of a record row's word. -/
def rowAddr (c : Config) : RecordRow → Nat
  | .w2410 => 0x2410
  | .w2420 => 0x2420
  | .w2432 => 0x2432
  | .w2433 => 0x2433
  | .w2434 => 0x2434
  | .w2436 => 0x2436
  | .w2437 => 0x2437
  | .w2438 => 0x2438
  | .w243C => 0x243C
  | .ptat25 => 0x240A
  | .eeGain => 0x241A
  | .offsetAvg => c.aOffsetAvg
  | .alphaAvg => c.aAlphaAvg
  | .occRow k => c.aOccRow + k
  | .occCol k => c.aOccCol + k
  | .accRow k => c.aAccRow + k
  | .accCol k => c.aAccCol + k
  | .pixword i => c.aPix + i
  | .rawPixel i => 0x0400 + i
  | .ambientProxyRaw => 0x0720
  | .vddRaw => c.aVddRaw
  | .vBe => c.aVBe
  | .gainRam => c.aGainRam
  | .statusWord => 0x8000

/-- The space a record row's word stands in. -/
def rowSpace : RecordRow → Space
  | .rawPixel _ | .ambientProxyRaw | .vddRaw | .vBe | .gainRam | .statusWord => .fr
  | .w2410 | .w2420 | .w2432 | .w2433 | .w2434 | .w2436 | .w2437 | .w2438 | .w243C | .ptat25 | .eeGain | .offsetAvg
  | .alphaAvg | .occRow _ | .occCol _ | .accRow _ | .accCol _ | .pixword _ => .ee

/-- The word of a record row in an image (20_memory.md rules R58, R59). -/
def rowWord (c : Config) (m : Memory) (r : RecordRow) : Word :=
  if r = .statusWord then readStatusWord m else memRead (rowSpace r) m (rowAddr c r)

/-- The instruction of a record row in an image. -/
def rowInstr (c : Config) (m : Memory) (r : RecordRow) : Instr := decodeRow r (rowWord c m r)

end Sys2Proof.Machine
end

