-- ==== Sys2Proof/Machine/Flags.lean ====
section
/-! DEFINITION. What sets the sticky flags and decides the error tests (10_state.md rule R23; 60_exceptions.md). -/

namespace Sys2Proof.Machine

/-- `any MemRead of this DECODE was out of range` (41_decode.md rule R178). -/
def decodeOutOfRange (c : Config) : Bool := (decodeAddrs c).any outOfRange

/-- A `MemRead` of this COMPENSATE was out of range (42_compensate.md rule R192). -/
def compensateOutOfRange (c : Config) : Bool := (compensateAddrs c).any outOfRange

/-- `TGC != 0` (41_decode.md rule R155). -/
def tgcPresent (tgc : Int) : Bool := decide (tgc ≠ 0)

/-- `identity_ok` (41_decode.md rule R143). -/
def identityOk (c : Config) (m : Memory) : Bool :=
  (List.finRange 6).all (fun j => m.identityByte (c.idOff + j) == c.idSig.get j) &&
    (List.finRange 8).all (fun j => m.identityByte (c.cfgOff + j) == c.cfgSig.get j)

/-- The bytes of the EEPROM image (00_scope.md rule R7). -/
def eeBytes : Nat := 1664

/-- The expected frame length `L` (42_compensate.md rule R191). -/
def frameBytes (extended : Bool) : Nat := if extended then 1728 else 1664

/-- The tests of DECODE that look at no byte of the image (41_decode.md rule R179). -/
def decodeEarlyError (s : State) : Option ErrCode :=
  if s.status.calValid then some .calLocked
  else if s.din.len ≠ eeBytes then some .truncatedImage
  else none

/-- The first failing test of DECODE, in the order of 41_decode.md rule R179. -/
def decodeError (skip : Bool) (s : State) : Option ErrCode :=
  match decodeEarlyError s with
  | some e => some e
  | none => if !skip && !identityOk s.cfg s.din then some .identityMismatch else none

/-- The first failing test of COMPENSATE, in the order of 42_compensate.md rule R209. -/
def compensateError (s : State) : Option ErrCode :=
  if !s.status.calValid then some .notCalibrated
  else if s.din.len < frameBytes s.mode.extended then some .incompleteFrame
  else if s.din.len > frameBytes s.mode.extended then some .illegalOperand
  else none

/-- The `diag` field of an error response of DECODE (30_encoding.md rule R106, 41_decode.md rule R144). -/
def decodeDiag (s : State) : ErrCode → Cells 16 Word
  | .identityMismatch => diagWords s.din
  | .ok | .truncatedImage | .incompleteFrame | .notCalibrated | .calLocked | .illegalCommand | .illegalOperand => noDiag

end Sys2Proof.Machine
end

