-- ==== Sys2Proof/Machine/Numerics.lean ====
section
/-! DEFINITION. `NUMERICS`: first its default, IEEE 754 binary64, round to nearest even, no traps (00_scope.md rules R8, R11, R12;
92_eei_decisions.md D16; log 7). A finite operand is an integer times a power of two; an operation forms the exact result
as a ratio of integers and rounds it once. Then the arithmetic that a configuration names. -/

namespace Sys2Proof

/-- The sign bit. -/
def F64.neg (x : F64) : Bool := decide (2 ^ 63 ≤ x.toNat)

/-- The biased exponent field. -/
def F64.expField (x : F64) : Nat := x.toNat / 2 ^ 52 % 2048

/-- The fraction field. -/
def F64.frac (x : F64) : Nat := x.toNat % 2 ^ 52

def F64.isNaN (x : F64) : Bool := decide (F64.expField x = 2047) && decide (F64.frac x ≠ 0)

def F64.isInf (x : F64) : Bool := decide (F64.expField x = 2047) && decide (F64.frac x = 0)

/-- Neither an infinity nor a NaN. -/
def F64.isFinite (x : F64) : Bool := decide (F64.expField x ≠ 2047)

/-- The integer significand of a finite value. -/
def F64.mant (x : F64) : Nat := if F64.expField x = 0 then F64.frac x else 2 ^ 52 + F64.frac x

/-- A finite value is `± mant * 2 ^ (scale - 1075)`. -/
def F64.scale (x : F64) : Nat := max (F64.expField x) 1

/-- The finite value is +0 or -0. -/
def F64.isZero (x : F64) : Bool := decide (x.toNat % 2 ^ 63 = 0)

/-- A pattern from its sign and its lower 63 bits. -/
def F64.pack (neg : Bool) (mag : Nat) : F64 := BitVec.ofNat 64 ((if neg then 2 ^ 63 else 0) + mag)

/-- A signed zero. -/
def F64.zero (neg : Bool) : F64 := F64.pack neg 0

/-- A signed infinity. -/
def F64.inf (neg : Bool) : F64 := F64.pack neg (2047 * 2 ^ 52)

/-- A quiet NaN with the given sign and payload. -/
def F64.qNaN (b : BitVec 52) : F64 :=
  placed 64 (b.extractLsb' 51 1) 63 ||| placed 64 0x7FF#11 52 ||| placed 64 1#1 51 ||| placed 64 (b.extractLsb' 0 51) 0

/-- The NaN an operation answers: quiet, its sign and payload free (log 9). -/
def F64.nan (op : NumOp) (x y : F64) : F64 := F64.qNaN (Config.nanBits op x y)

/-- `floor (log2 (num / den))` for positive `num`, `den`. -/
def F64.ratLog2 (num den : Nat) : Int :=
  let l : Int := (num.log2 : Int) - (den.log2 : Int)
  let atLeast : Bool := if 0 ≤ l then decide (den * 2 ^ l.toNat ≤ num) else decide (den ≤ num * 2 ^ (-l).toNat)
  if atLeast then l else l - 1

/-- The nearest integer to `n / d`, ties to even. -/
def F64.roundHalfEven (n d : Nat) : Nat :=
  let k := n / d
  let r := n % d
  if d < 2 * r then k + 1 else if d = 2 * r then k + k % 2 else k

/-- The binary64 nearest to `± num / den`, for positive `num`, `den`. -/
def F64.ofRat (neg : Bool) (num den : Nat) : F64 :=
  let q : Int := max (F64.ratLog2 num den - 52) (-1074)
  let k := F64.roundHalfEven (num * 2 ^ (-q).toNat) (den * 2 ^ q.toNat)
  F64.pack neg (min ((q + 1074).toNat * 2 ^ 52 + k) (2047 * 2 ^ 52))

/-- The binary64 nearest to `± num / den * 2 ^ e`, for positive `num`, `den`. -/
def F64.ofScaled (neg : Bool) (num den : Nat) (e : Int) : F64 :=
  F64.ofRat neg (num * 2 ^ e.toNat) (den * 2 ^ (-e).toNat)

/-- `of_int` of the default (00_scope.md rule R11). -/
def F64.ofInt (n : Int) : F64 := if n = 0 then F64.zero false else F64.ofRat (decide (n < 0)) n.natAbs 1

/-- The `f64` nearest to a positive decimal `num / den` (00_scope.md rule R11). -/
def F64.lit (num den : Nat) : F64 := F64.ofRat false num den

/-- `2^n` in an `f64` context: the exact power of two for `n` in [0, 60] (00_scope.md rule R11); no default configuration leaves that
range, and outside it the value is free (log 11). -/
def F64.pow2 (n : Int) : F64 := if 0 ≤ n ∧ n ≤ 60 then F64.ofRat false (2 ^ n.toNat) 1 else Config.freePow2 n

/-- The sign of an exact sum that is zero: minus only when both operands are (round to nearest). -/
def F64.zeroSum (x y : F64) : F64 := F64.zero (F64.neg x && F64.neg y)

/-- The signed significand at the scale `e`, for `e ≤ scale x`. -/
def F64.signedMant (x : F64) (e : Nat) : Int :=
  (if F64.neg x then -1 else 1) * ((F64.mant x * 2 ^ (F64.scale x - e) : Nat) : Int)

/-- `add` of the default. -/
def F64.add (x y : F64) : F64 :=
  if F64.isNaN x || F64.isNaN y then F64.nan .add x y
  else if F64.isInf x then (if F64.isInf y && (F64.neg x != F64.neg y) then F64.nan .add x y else x)
  else if F64.isInf y then y
  else
    let e := min (F64.scale x) (F64.scale y)
    let n := F64.signedMant x e + F64.signedMant y e
    if n = 0 then F64.zeroSum x y else F64.ofScaled (decide (n < 0)) n.natAbs 1 ((e : Int) - 1075)

/-- The pattern with its sign bit turned. -/
def F64.negate (x : F64) : F64 := x ^^^ 0x8000000000000000#64

/-- `sub` of the default: the sum with the second operand negated, but for the NaN it answers. -/
def F64.sub (x y : F64) : F64 :=
  if F64.isNaN x || F64.isNaN y then F64.nan .sub x y
  else if F64.isInf x && F64.isInf y && (F64.neg x == F64.neg y) then F64.nan .sub x y
  else F64.add x (F64.negate y)

/-- `mul` of the default. -/
def F64.mul (x y : F64) : F64 :=
  let s := F64.neg x != F64.neg y
  if F64.isNaN x || F64.isNaN y then F64.nan .mul x y
  else if F64.isInf x || F64.isInf y then
    (if F64.isZero x || F64.isZero y then F64.nan .mul x y else F64.inf s)
  else if F64.isZero x || F64.isZero y then F64.zero s
  else F64.ofScaled s (F64.mant x * F64.mant y) 1 ((F64.scale x : Int) + (F64.scale y : Int) - 2150)

/-- `div` of the default (42_compensate.md rule R207: x/0 is an infinity for x nonzero, 0/0 is a NaN). -/
def F64.div (x y : F64) : F64 :=
  let s := F64.neg x != F64.neg y
  if F64.isNaN x || F64.isNaN y then F64.nan .div x y
  else if F64.isInf x then (if F64.isInf y then F64.nan .div x y else F64.inf s)
  else if F64.isInf y then F64.zero s
  else if F64.isZero y then (if F64.isZero x then F64.nan .div x y else F64.inf s)
  else if F64.isZero x then F64.zero s
  else F64.ofScaled s (F64.mant x) (F64.mant y) ((F64.scale x : Int) - (F64.scale y : Int))

/-- The exponent 4.0 of COMPENSATE step 6 (42_compensate.md rule R198). -/
def F64.four : F64 := F64.lit 4 1

/-- The exponent 0.25 of COMPENSATE step 8 (42_compensate.md rule R204). -/
def F64.quarter : F64 := F64.lit 1 4

/-- The exponent is one of the two that COMPENSATE uses. -/
def F64.isStatedExponent (y : F64) : Bool := y == F64.four || y == F64.quarter

/-- `pow` of the default, for the exponents 4.0 and 0.25 with the results the spec states (42_compensate.md rule R207): a NaN operand gives
a NaN, a negative base with exponent 0.25 gives a NaN (so the rule's words; minus infinity: log 8), and an infinite or zero base
the IEEE 754 default result (95_test_vectors.md V54). Elsewhere the value is free (93_implementation_defined.md U8; log 8). -/
def F64.pow (x y : F64) : F64 :=
  if F64.isNaN x || F64.isNaN y then F64.nan .pow x y
  else if y == F64.quarter && F64.neg x && !F64.isZero x then F64.nan .pow x y
  else if F64.isStatedExponent y && F64.isInf x then F64.inf false
  else if F64.isStatedExponent y && F64.isZero x then F64.zero false
  else Config.freePow x y

/-- An integer that orders the patterns that are no NaN as their values, the two zeros equal. -/
def F64.key (x : F64) : Int := if F64.neg x then -((x.toNat % 2 ^ 63 : Nat) : Int) else ((x.toNat % 2 ^ 63 : Nat) : Int)

/-- `x < y`: false when an operand is a NaN (43_track.md rule R225). -/
def F64.lt (x y : F64) : Bool := !F64.isNaN x && !F64.isNaN y && decide (F64.key x < F64.key y)

/-! ### The arithmetic of a configuration (00_scope.md rules R8, R11) -/

/-- An operation of `CFG.NUMERICS` on two `f64`, given what it is under the default. -/
def Numerics.op (N : Numerics) (o : NumOp) (default : F64 → F64 → F64) (x y : F64) : F64 :=
  match N with
  | .binary64 => default x y
  | .other n => Config.otherOp n o x y

/-- `NUMERICS.add`. -/
def Numerics.add (N : Numerics) : F64 → F64 → F64 := N.op .add F64.add

/-- `NUMERICS.sub`. -/
def Numerics.sub (N : Numerics) : F64 → F64 → F64 := N.op .sub F64.sub

/-- `NUMERICS.mul`. -/
def Numerics.mul (N : Numerics) : F64 → F64 → F64 := N.op .mul F64.mul

/-- `NUMERICS.div`. -/
def Numerics.div (N : Numerics) : F64 → F64 → F64 := N.op .div F64.div

/-- `NUMERICS.pow`. -/
def Numerics.pow (N : Numerics) : F64 → F64 → F64 := N.op .pow F64.pow

/-- `NUMERICS.of_int`. -/
def Numerics.ofInt (N : Numerics) (k : Int) : F64 :=
  match N with
  | .binary64 => F64.ofInt k
  | .other n => Config.otherOfInt n k

/-- The comparison `<` of `NUMERICS` (43_track.md rule R225). -/
def Numerics.lt (N : Numerics) (x y : F64) : Bool :=
  match N with
  | .binary64 => F64.lt x y
  | .other n => Config.otherLt n x y

/-- The comparison `>` of `NUMERICS` (43_track.md rule R225). Under the default it is `<` with its operands exchanged (PRESUMED from
IEEE 754, log 7); of another `NUMERICS` the rule relates the two in no way, so its `>` is a function of its own. -/
def Numerics.gt (N : Numerics) (x y : F64) : Bool :=
  match N with
  | .binary64 => F64.lt y x
  | .other n => Config.otherGt n x y

end Sys2Proof
end

