-- ==== Sys2Proof/Machine/CalRows.lean ====
section
/-! DEFINITION. The rows of the decode table, one definition per rule (41_decode.md rules R148 to R163): first what a row does to
the temporaries and to the scalars staged for the commit, from the values of its sub-fields; then the meaning of each EEPROM
record word, which gives its row the values of the word's sub-fields (log 6). -/

namespace Sys2Proof.Machine

/-! ### What a row does -/

/-- `a_PTAT_EE/4.0 + 8.0` (41_decode.md rule R148). -/
def aPtatOf (N : Numerics) (a : Int) : F64 := N.add (N.div (N.ofInt a) (F64.lit 4 1)) (F64.lit 8 1)

/-- `(KT_mid << 8) | KT_low`, a `u10` (30_encoding.md rule R108 (a)); free outside its range, which no default configuration leaves
(log 11). -/
def ktRawOf (low mid : Int) : Int :=
  let v := assemble 8 low mid
  if 0 ≤ v ∧ v ≤ 1023 then v else Config.freeAssembled 8 low mid

/-- `KT_raw / 8.0` (41_decode.md rule R150). -/
def kTPtatOf (N : Numerics) (low mid : Int) : F64 := N.div (N.ofInt (ktRawOf low mid)) (F64.lit 8 1)

/-- `KV_PTAT_EE / 4096.0` (41_decode.md rule R150). -/
def kVPtatOf (N : Numerics) (v : Int) : F64 := N.div (N.ofInt v) (F64.lit 4096 1)

/-- `KV_n / 2^K_V_scale` (41_decode.md rule R152). -/
def kVCellOf (N : Numerics) (kvScale v : Int) : F64 := N.div (N.ofInt v) (F64.pow2 kvScale)

/-- `(alpha_hi << 4) | alpha_lo`, sign-extended from 6 bits (41_decode.md rule R162); free for a number of more than 6 bits, which no
default configuration gives (log 11). -/
def alphaRemOf (lo hi : Int) : Int :=
  let v := assemble 4 lo hi
  if 0 ≤ v ∧ v ≤ 63 then sext6 v.toNat else Config.freeSext6 v

/-- `for n in 0..4: (pr, pc) <- MAP(n); cell[pr][pc] <- v(n)` (41_decode.md rules R152, R153). -/
def scatter {α : Type} (map : ParityMap) (v : Fin 4 → α) (q : Quad α) : Quad α :=
  (List.finRange 4).foldl (fun q n => q.set (map.get n).1 (map.get n).2 (v n)) q

/-- One of four values by number. -/
def pick4 {α : Type} (a b c d : α) (n : Nat) : α :=
  if n = 0 then a else if n = 1 then b else if n = 2 then c else d

/-- Row 0x2410 (41_decode.md rule R148). -/
def rowW2410 (N : Numerics) (rem col row a : Int) (t : DecodeTemps) : DecodeTemps :=
  { t with remScale := rem, colScale := col, rowScale := row, aPtatEE := a, staged := { t.staged with aPtat := aPtatOf N a } }

/-- Row 0x2420 (41_decode.md rule R149). -/
def rowW2420 (rem col row a : Int) (t : DecodeTemps) : DecodeTemps :=
  { t with aRemScale := rem, aColScale := col, aRowScale := row, aScale := a + 30 }

/-- Row 0x2432 (41_decode.md rule R150). -/
def rowW2432 (N : Numerics) (low mid kv : Int) (t : DecodeTemps) : DecodeTemps :=
  { t with staged := { t.staged with kTPtat := kTPtatOf N low mid, kVPtat := kVPtatOf N kv } }

/-- Row 0x2433 (41_decode.md rule R151). -/
def rowW2433 (vdd kVdd : Int) (t : DecodeTemps) : DecodeTemps :=
  { t with staged := { t.staged with vdd25 := storeUnsigned 8 vdd, kVdd := storeSigned 8 kVdd } }

/-- Row 0x2434, which uses `K_V_scale` of row 0x2438 (41_decode.md rules R141, R152). -/
def rowW2434 (N : Numerics) (map : ParityMap) (n0 n1 n2 n3 : Int) (t : DecodeTemps) : DecodeTemps :=
  { t with
    staged := { t.staged with kV := scatter map (fun n => kVCellOf N t.kvScale (pick4 n0 n1 n2 n3 n.val)) t.staged.kV } }

/-- Rows 0x2436 and 0x2437, the sub-fields named by `which`. The grid is "a temporary of four `s8`" (41_decode.md rule R153): what it
holds of a field that does not fit, under a field table other than the default, the spec does not say, and here it is a free
value (DESIGN CHOICE, log 11). -/
def rowKTa2x2 (map : ParityMap) (which : List (Fin 4 × Int)) (t : DecodeTemps) : DecodeTemps :=
  { t with kTa2x2 := which.foldl (fun q p => q.set (map.get p.1).1 (map.get p.1).2 (asSigned 8 p.2)) t.kTa2x2 }

/-- Row 0x2438; `unused_2438` is dropped (41_decode.md rule R154). -/
def rowW2438 (_unused kvScale s1 s2 : Int) (t : DecodeTemps) : DecodeTemps :=
  { t with kvScale := kvScale, kTaScale1 := s1 + 8, kTaScale2 := s2 }

/-- Row 0x243C; the warning is raised at the commit (41_decode.md rule R155). -/
def rowW243C (tgc ksTa : Int) (t : DecodeTemps) : DecodeTemps := { t with tgc := tgc, ksTa := ksTa }

/-- Row PTAT_25 (41_decode.md rule R156). -/
def rowPtat25 (v : Int) (t : DecodeTemps) : DecodeTemps :=
  { t with staged := { t.staged with vPtat25 := storeSigned 16 v } }

/-- Row ee_GAIN (41_decode.md rule R156). -/
def rowEeGain (v : Int) (t : DecodeTemps) : DecodeTemps :=
  { t with staged := { t.staged with gainEe := storeSigned 16 v } }

/-- `offset_avg` (41_decode.md rule R157). -/
def rowOffsetAvg (v : Int) (t : DecodeTemps) : DecodeTemps := { t with offsetAvg := v }

/-- `a_avg` (41_decode.md rule R157). -/
def rowAlphaAvg (v : Int) (t : DecodeTemps) : DecodeTemps := { t with aAvg := v }

/-- Word `k` of a packed nibble array: elements `4k` to `4k+3` (30_encoding.md rules R94, R95). -/
def putNibbles {n : Nat} (k : Nat) (a b c d : Int) (arr : Cells n Int) : Cells n Int :=
  Cells.ofFn fun j => if j.val / 4 = k then pick4 a b c d (j.val % 4) else arr.get j

/-- The per-pixel word of pixel `i` (41_decode.md rules R160 to R163). -/
def rowPixword (i : Pixel) (outlier inc lo hi off : Int) (t : DecodeTemps) : DecodeTemps :=
  { t with
    outlier := t.outlier.put i outlier
    kTaIncrement := t.kTaIncrement.put i inc
    alphaRem := t.alphaRem.put i (alphaRemOf lo hi)
    pixOff := t.pixOff.put i off }

/-! ### The meanings of the EEPROM record words -/

/-- Apply a row to the decode temporaries. -/
def State.onDec (s : State) (f : DecodeTemps → DecodeTemps) : State :=
  { s with work := { s.work with dec := f s.work.dec } }

/-- W2410 (41_decode.md rule R148). -/
def execW2410 (remScale colScale rowScale aPtatEE : BitVec 4) (s : State) : Host.Outcome State Fault Refusal :=
  .next (s.onDec (rowW2410 s.cfg.numerics (zext remScale) (zext colScale) (zext rowScale) (zext aPtatEE)))

/-- W2420 (41_decode.md rule R149). -/
def execW2420 (aRemScale aColScale aRowScale aScaleEE : BitVec 4) (s : State) : Host.Outcome State Fault Refusal :=
  .next (s.onDec (rowW2420 (zext aRemScale) (zext aColScale) (zext aRowScale) (zext aScaleEE)))

/-- W2432 (41_decode.md rule R150). -/
def execW2432 (ktLow : BitVec 8) (ktMid : BitVec 2) (kvPtatEE : BitVec 6) (s : State) :
    Host.Outcome State Fault Refusal :=
  .next (s.onDec (rowW2432 s.cfg.numerics (zext ktLow) (zext ktMid) (sext kvPtatEE)))

/-- W2433 (41_decode.md rule R151). -/
def execW2433 (vdd25EE kVddEE : BitVec 8) (s : State) : Host.Outcome State Fault Refusal :=
  .next (s.onDec (rowW2433 (zext vdd25EE) (sext kVddEE)))

/-- W2434 (41_decode.md rule R152). -/
def execW2434 (kvN0 kvN1 kvN2 kvN3 : BitVec 4) (s : State) : Host.Outcome State Fault Refusal :=
  .next (s.onDec (rowW2434 s.cfg.numerics s.cfg.kvMap (sext kvN0) (sext kvN1) (sext kvN2) (sext kvN3)))

/-- W2436 (41_decode.md rule R153). -/
def execW2436 (ktaB0 ktaB1 : BitVec 8) (s : State) : Host.Outcome State Fault Refusal :=
  .next (s.onDec (rowKTa2x2 s.cfg.ktaMap [(0, sext ktaB0), (1, sext ktaB1)]))

/-- W2437 (41_decode.md rule R153). -/
def execW2437 (ktaB2 ktaB3 : BitVec 8) (s : State) : Host.Outcome State Fault Refusal :=
  .next (s.onDec (rowKTa2x2 s.cfg.ktaMap [(2, sext ktaB2), (3, sext ktaB3)]))

/-- W2438 (41_decode.md rule R154). -/
def execW2438 (unused kvScale kTaScale1EE kTaScale2 : BitVec 4) (s : State) : Host.Outcome State Fault Refusal :=
  .next (s.onDec (rowW2438 (zext unused) (zext kvScale) (zext kTaScale1EE) (zext kTaScale2)))

/-- W243C (41_decode.md rule R155). -/
def execW243C (tgc ksTa : BitVec 8) (s : State) : Host.Outcome State Fault Refusal :=
  .next (s.onDec (rowW243C (sext tgc) (sext ksTa)))

/-- PTAT_25 (41_decode.md rule R156). -/
def execPtat25 (v : Word) (s : State) : Host.Outcome State Fault Refusal := .next (s.onDec (rowPtat25 (sext v)))

/-- ee_GAIN (41_decode.md rule R156). -/
def execEeGain (v : Word) (s : State) : Host.Outcome State Fault Refusal := .next (s.onDec (rowEeGain (sext v)))

/-- OFFSET_AVG (41_decode.md rule R157). -/
def execOffsetAvg (v : Word) (s : State) : Host.Outcome State Fault Refusal := .next (s.onDec (rowOffsetAvg (sext v)))

/-- ALPHA_AVG (41_decode.md rule R157). -/
def execAlphaAvg (v : Word) (s : State) : Host.Outcome State Fault Refusal := .next (s.onDec (rowAlphaAvg (zext v)))

/-- OCC_ROW (41_decode.md rule R158). -/
def execOccRow (k : Fin 6) (a b c d : BitVec 4) (s : State) : Host.Outcome State Fault Refusal :=
  .next (s.onDec fun t => { t with offsetRow := putNibbles k.val (sext a) (sext b) (sext c) (sext d) t.offsetRow })

/-- OCC_COL (41_decode.md rule R158). -/
def execOccCol (k : Fin 8) (a b c d : BitVec 4) (s : State) : Host.Outcome State Fault Refusal :=
  .next (s.onDec fun t => { t with offsetCol := putNibbles k.val (sext a) (sext b) (sext c) (sext d) t.offsetCol })

/-- ACC_ROW (41_decode.md rule R159). -/
def execAccRow (k : Fin 6) (a b c d : BitVec 4) (s : State) : Host.Outcome State Fault Refusal :=
  .next (s.onDec fun t => { t with aRow := putNibbles k.val (sext a) (sext b) (sext c) (sext d) t.aRow })

/-- ACC_COL (41_decode.md rule R159). -/
def execAccCol (k : Fin 8) (a b c d : BitVec 4) (s : State) : Host.Outcome State Fault Refusal :=
  .next (s.onDec fun t => { t with aCol := putNibbles k.val (sext a) (sext b) (sext c) (sext d) t.aCol })

/-- PIXWORD (41_decode.md rules R160 to R163). -/
def execPixword (i : Pixel) (outlier : BitVec 1) (kTaIncrement : BitVec 3) (alphaLo : BitVec 4) (alphaHi : BitVec 2)
    (pixOff : BitVec 6) (s : State) : Host.Outcome State Fault Refusal :=
  .next (s.onDec (rowPixword i (zext outlier) (sext kTaIncrement) (zext alphaLo) (zext alphaHi) (sext pixOff)))

end Sys2Proof.Machine
end

