-- ==== Sys2Proof/Machine/Calibrate.lean ====
section
/-! DEFINITION. CDEC: the operation DECODE (41_decode.md): the tests, every row over the image through the field table, the
per-pixel reconstruction, the commit. -/

namespace Sys2Proof.Machine

/-! ### Every row over the image -/

/-- The scalar rows of the table; the order cannot be observed but for the one data dependence of rule R152 on rule R154
(41_decode.md rules R141, R148 to R157). -/
def decodeScalars (c : Config) (m : Memory) (t : DecodeTemps) : DecodeTemps :=
  let rd := readField .ee m
  let f := c.ft
  let t := rowW2410 c.numerics (rd f.remScale) (rd f.colScale) (rd f.rowScale) (rd f.aPtatEE) t
  let t := rowW2420 (rd f.aRemScale) (rd f.aColScale) (rd f.aRowScale) (rd f.aScaleEE) t
  let t := rowW2432 c.numerics (rd f.ktLow) (rd f.ktMid) (rd f.kvPtatEE) t
  let t := rowW2433 (rd f.vdd25EE) (rd f.kVddEE) t
  let t := rowW2438 (rd f.unused2438) (rd f.kvScale) (rd f.kTaScale1EE) (rd f.kTaScale2) t
  let t := rowW2434 c.numerics c.kvMap (rd f.kvN0) (rd f.kvN1) (rd f.kvN2) (rd f.kvN3) t
  let t := rowKTa2x2 c.ktaMap [(0, rd f.ktaB0), (1, rd f.ktaB1)] t
  let t := rowKTa2x2 c.ktaMap [(2, rd f.ktaB2), (3, rd f.ktaB3)] t
  let t := rowW243C (rd f.tgc) (rd f.ksTa) t
  let t := rowPtat25 (rd f.ptat25) t
  let t := rowEeGain (rd f.eeGain) t
  let t := rowOffsetAvg (rd (offsetAvgField c)) t
  rowAlphaAvg (rd (aAvgField c)) t

/-- A whole packed array (41_decode.md rules R158, R159). -/
def readElements {k : Nat} (m : Memory) (base : Nat) (slices : Cells k Slice) : Cells k Int :=
  Cells.ofFn fun n => readField .ee m (elementField base slices n)

/-- The four packed nibble arrays (41_decode.md rules R158, R159). -/
def decodeArrays (c : Config) (m : Memory) (t : DecodeTemps) : DecodeTemps :=
  { t with
    offsetRow := readElements m c.aOccRow c.arr.offsetRow
    offsetCol := readElements m c.aOccCol c.arr.offsetCol
    aRow := readElements m c.aAccRow c.arr.aRow
    aCol := readElements m c.aAccCol c.arr.aCol }

/-- A sub-field of every per-pixel word. -/
def readPixels (c : Config) (m : Memory) (sl : Slice) : Cells 768 Int :=
  Cells.ofFn fun i => readField .ee m (pixField c sl i)

/-- The per-pixel words (41_decode.md rules R160 to R163). -/
def decodePixels (c : Config) (m : Memory) (t : DecodeTemps) : DecodeTemps :=
  { t with
    outlier := readPixels c m c.pix.outlier
    kTaIncrement := readPixels c m c.pix.kTaIncrement
    alphaRem := Cells.ofFn fun i =>
      alphaRemOf (readField .ee m (pixField c c.pix.alphaLo i)) (readField .ee m (pixField c c.pix.alphaHi i))
    pixOff := readPixels c m c.pix.pixOff }

/-- The temporaries before the first row: a parity cell that a map feeds from no sub-field holds a free value (log 11). -/
def freshTemps (t : DecodeTemps) : DecodeTemps :=
  { t with
    kTa2x2 := ⟨Config.unfedKTa 0, Config.unfedKTa 1, Config.unfedKTa 2, Config.unfedKTa 3⟩
    staged := { t.staged with kV := ⟨Config.unfedKV 0, Config.unfedKV 1, Config.unfedKV 2, Config.unfedKV 3⟩ } }

/-- The temporaries when every field of the image has been read (41_decode.md rule R140). -/
def decodeImage (c : Config) (m : Memory) (t : DecodeTemps) : DecodeTemps :=
  decodePixels c m (decodeArrays c m (decodeScalars c m (freshTemps t)))

/-! ### The per-pixel reconstruction (41_decode.md rules R170 to R173) -/

/-- `row % 2` of a pixel (41_decode.md rule R173). -/
def rowParity (i : Pixel) : Fin 2 := Fin.ofNat 2 i.row

/-- `col % 2` of a pixel (41_decode.md rule R173). -/
def colParity (i : Pixel) : Fin 2 := Fin.ofNat 2 i.col

/-- The row of a pixel as an index of a row array. -/
def rowIndex (i : Pixel) : Fin 24 := ⟨i.val / 32, by omega⟩

/-- The column of a pixel as an index of a column array. -/
def colIndex (i : Pixel) : Fin 32 := ⟨i.val % 32, by omega⟩

/-- `n_kta` (41_decode.md rule R170). -/
def kTaNumerator (t : DecodeTemps) (i : Pixel) : Int :=
  t.kTa2x2.get (rowParity i) (colParity i) + shl (t.kTaIncrement.get i) t.kTaScale2

/-- `K_Ta` (41_decode.md rule R170). -/
def kTaOf (N : Numerics) (t : DecodeTemps) (i : Pixel) : F64 := N.div (N.ofInt (kTaNumerator t i)) (F64.pow2 t.kTaScale1)

/-- `offset_ref` as an integer (41_decode.md rule R171). -/
def offsetRefOf (t : DecodeTemps) (i : Pixel) : Int :=
  t.offsetAvg + shl (t.offsetRow.get (rowIndex i)) t.rowScale + shl (t.offsetCol.get (colIndex i)) t.colScale +
    shl (t.pixOff.get i) t.remScale

/-- `n_a` (41_decode.md rule R172). -/
def aRefNumerator (t : DecodeTemps) (i : Pixel) : Int :=
  t.aAvg + shl (t.aRow.get (rowIndex i)) t.aRowScale + shl (t.aCol.get (colIndex i)) t.aColScale +
    shl (t.alphaRem.get i) t.aRemScale

/-- `a_ref` (41_decode.md rule R172). -/
def aRefOf (N : Numerics) (t : DecodeTemps) (i : Pixel) : F64 := N.div (N.ofInt (aRefNumerator t i)) (F64.pow2 t.aScale)

/-- The calibration register file made of the temporaries (41_decode.md rules R170 to R172, R178). -/
def reconstruct (N : Numerics) (t : DecodeTemps) : Cal :=
  { t.staged with
    kTa := Cells.ofFn (kTaOf N t)
    offsetRef := Cells.ofFn fun i => storeSigned 32 (offsetRefOf t i)
    aRef := Cells.ofFn (aRefOf N t) }

/-! ### The commit and the operation -/

/-- The commit (41_decode.md rule R178). -/
def State.commitCal (s : State) (t : DecodeTemps) : State :=
  { s with
    cal := reconstruct s.cfg.numerics t
    status :=
      { s.status with
        calValid := true
        wTgc := s.status.wTgc || tgcPresent t.tgc
        eAor := s.status.eAor || decodeOutOfRange s.cfg } }

/-- A DECODE that passed its tests (41_decode.md rule R140). The temporaries in State are not touched (log 6). -/
def State.runDecode (s : State) : State := (s.commitCal (decodeImage s.cfg s.din s.work.dec)).finish 0#32

/-- DECODE (41_decode.md rule R140). An ill-formed configuration is refused before the first byte of the image is looked at
(log 10). -/
def execDecode (skip : Bool) (s : State) : Host.Outcome State Fault Refusal :=
  match decodeEarlyError s with
  | some e => .next (s.raise e (decodeDiag s e))
  | none =>
    if decodeConfigWf s.cfg then
      match decodeError skip s with
      | some e => .next (s.raise e (decodeDiag s e))
      | none => .next s.runDecode
    else .refused .illFormedConfig

end Sys2Proof.Machine
end

