-- ==== Sys2Proof/Machine/FrameRows.lean ====
section
/-! DEFINITION. The words of a frame (30_encoding.md rule R98; 42_compensate.md rules R192, R193, R200, R202): what each does
to the frame temporaries, each an `s16`, then the meaning of each frame record word (log 6). -/

namespace Sys2Proof.Machine

/-- `VDD_raw` (42_compensate.md rule R192). -/
def rowVddRaw (v : Int) (t : FrameTemps) : FrameTemps := { t with vddRaw := asSigned 16 v }

/-- `ambient_proxy_raw`, one opaque field (42_compensate.md rules R192, R193). -/
def rowAmbientProxyRaw (v : Int) (t : FrameTemps) : FrameTemps := { t with ambientProxyRaw := asSigned 16 v }

/-- `V_BE` (42_compensate.md rule R192). -/
def rowVBe (v : Int) (t : FrameTemps) : FrameTemps := { t with vBe := asSigned 16 v }

/-- `gain_ram` (42_compensate.md rule R192). -/
def rowGainRam (v : Int) (t : FrameTemps) : FrameTemps := { t with gainRam := asSigned 16 v }

/-- `subpage <- status % 2` (42_compensate.md rule R200). -/
def rowStatusWord (status : Nat) (t : FrameTemps) : FrameTemps := { t with subpage := status % 2 }

/-- `raw_pixel[i]` (42_compensate.md rule R202). -/
def rowRawPixel (i : Pixel) (v : Int) (t : FrameTemps) : FrameTemps := { t with rawPixel := t.rawPixel.put i (asSigned 16 v) }

/-- Apply a row to the frame temporaries. -/
def State.onFrm (s : State) (f : FrameTemps → FrameTemps) : State :=
  { s with work := { s.work with frm := f s.work.frm } }

/-- RAW_PIXEL (42_compensate.md rule R202). -/
def execRawPixel (i : Pixel) (v : Word) (s : State) : Host.Outcome State Fault Refusal :=
  .next (s.onFrm (rowRawPixel i (sext v)))

/-- AMBIENT_PROXY_RAW (42_compensate.md rule R193). -/
def execAmbientProxyRaw (v : Word) (s : State) : Host.Outcome State Fault Refusal :=
  .next (s.onFrm (rowAmbientProxyRaw (sext v)))

/-- VDD_RAW (42_compensate.md rule R192). -/
def execVddRaw (v : Word) (s : State) : Host.Outcome State Fault Refusal := .next (s.onFrm (rowVddRaw (sext v)))

/-- V_BE (42_compensate.md rule R192). -/
def execVBe (v : Word) (s : State) : Host.Outcome State Fault Refusal := .next (s.onFrm (rowVBe (sext v)))

/-- GAIN_RAM (42_compensate.md rule R192). -/
def execGainRam (v : Word) (s : State) : Host.Outcome State Fault Refusal := .next (s.onFrm (rowGainRam (sext v)))

/-- STATUS_WORD (42_compensate.md rule R200). -/
def execStatusWord (subpage : BitVec 1) (ignored : BitVec 15) (s : State) : Host.Outcome State Fault Refusal :=
  .next (s.onFrm (rowStatusWord (placed 16 ignored 1 ||| placed 16 subpage 0).toNat))

end Sys2Proof.Machine
end

