-- ==== Sys2Proof/Machine/Track.lean ====
section
/-! DEFINITION. RCP step 9, the notable-pixel scan (43_track.md). -/

namespace Sys2Proof.Machine

/-- The candidate after the cells 1 to `n` have been looked at, in row-major order: it starts as pixel 0 and is replaced by a
cell that is strictly better (43_track.md rules R220 to R222). -/
def scan (better : F64 → F64 → Bool) (temps : Cells 768 F64) : Nat → Pixel
  | 0 => 0
  | n + 1 =>
    let best := scan better temps n
    if h : n + 1 < 768 then (if better (temps.get ⟨n + 1, h⟩) (temps.get best) then ⟨n + 1, h⟩ else best) else best

/-- `imin` (43_track.md rule R221). -/
def minIndex (N : Numerics) (temps : Cells 768 F64) : Pixel := scan N.lt temps 767

/-- `imax` (43_track.md rule R222). -/
def maxIndex (N : Numerics) (temps : Cells 768 F64) : Pixel := scan N.gt temps 767

/-- The record of a pixel: x the column, y the row, the temperature bit for bit (43_track.md rule R224). -/
def notableAt (temps : Cells 768 F64) (i : Pixel) : NotablePixel where
  x := BitVec.ofNat 8 i.col
  y := BitVec.ofNat 8 i.row
  temperature := temps.get i

/-- The scene centre `(col=16, row=12)` (43_track.md rule R223). -/
def centerPixel : Pixel := 400

/-- TRACK (43_track.md rule R220). -/
def track (N : Numerics) (temps : Cells 768 F64) : Notables where
  min := notableAt temps (minIndex N temps)
  max := notableAt temps (maxIndex N temps)
  center := notableAt temps centerPixel

end Sys2Proof.Machine
end

