-- ==== Sys2Proof/Machine/Compensate.lean ====
section
/-! DEFINITION. RCP: the operation COMPENSATE, steps 1 to 9 (42_compensate.md, 43_track.md). Every `f64` formula is one
`NUMERICS` operation per operator, grouped as the rule groups it (00_scope.md rule R12). -/

namespace Sys2Proof.Machine

/-! ### Steps 1 to 6: the per-frame scalars -/

/-- Step 1, the header words (42_compensate.md rule R192). -/
def readHeader (c : Config) (m : Memory) (t : FrameTemps) : FrameTemps :=
  rowGainRam (readField .fr m (gainRamField c))
    (rowVBe (readField .fr m (vBeField c))
      (rowAmbientProxyRaw (readField .fr m (ambientProxyRawField c)) (rowVddRaw (readField .fr m (vddRawField c)) t)))

/-- `n_dv` (42_compensate.md rule R194). -/
def dvNumerator (cal : Cal) (t : FrameTemps) : Int := -(shl (zext cal.vdd25) 5) + t.vddRaw + 16384

/-- Step 2, `dV` (42_compensate.md rule R194). -/
def stepDV (N : Numerics) (cal : Cal) (t : FrameTemps) : F64 :=
  N.div (N.div (N.ofInt (dvNumerator cal t)) (N.ofInt (sext cal.kVdd))) (F64.lit 32 1)

/-- Step 3, `V_PTAT_art` (42_compensate.md rule R195). -/
def stepVPtatArt (N : Numerics) (cal : Cal) (t : FrameTemps) : F64 :=
  N.div (F64.lit 262144 1) (N.add cal.aPtat (N.div (N.ofInt t.vBe) (N.ofInt t.ambientProxyRaw)))

/-- Step 4, `dTa` (42_compensate.md rule R196). -/
def stepDTa (N : Numerics) (cal : Cal) (dV vPtatArt : F64) : F64 :=
  N.div
    (N.sub (N.div vPtatArt (N.add (F64.lit 1 1) (N.mul cal.kVPtat dV))) (N.ofInt (sext cal.vPtat25)))
    cal.kTPtat

/-- Step 5, `gain` (42_compensate.md rule R197). -/
def stepGain (N : Numerics) (cal : Cal) (t : FrameTemps) : F64 := N.div (N.ofInt (sext cal.gainEe)) (N.ofInt t.gainRam)

/-- Step 6, `T_ar` (42_compensate.md rule R198). -/
def stepTAr (N : Numerics) (dTa : F64) : F64 := N.pow (N.add dTa (F64.lit 29815 100)) F64.four

/-- The per-frame scalars that step 8 uses (42_compensate.md rules R194 to R198). -/
structure FrameScalars where
  dV : F64
  dTa : F64
  gain : F64
  tAr : F64
  deriving DecidableEq, Repr

/-- Steps 2 to 6. -/
def frameScalars (N : Numerics) (cal : Cal) (t : FrameTemps) : FrameScalars where
  dV := stepDV N cal t
  dTa := stepDTa N cal (stepDV N cal t) (stepVPtatArt N cal t)
  gain := stepGain N cal t
  tAr := stepTAr N (stepDTa N cal (stepDV N cal t) (stepVPtatArt N cal t))

/-! ### Steps 7 and 8: the per-pixel pass -/

/-- Step 7, the subpage, in extended mode only (42_compensate.md rule R200). -/
def readSubpage (extended : Bool) (m : Memory) (t : FrameTemps) : FrameTemps :=
  if extended then rowStatusWord (readStatusWord m).toNat t else t

/-- Step 8, the gate (42_compensate.md rule R201). -/
def gate (extended : Bool) (subpage : Nat) (i : Pixel) : Bool :=
  !extended || decide ((i.row + i.col) % 2 = subpage)

/-- Step 8, the raw words of the pixels that pass the gate (42_compensate.md rules R201, R202). -/
def readRawPixels (c : Config) (extended : Bool) (m : Memory) (t : FrameTemps) : FrameTemps :=
  { t with
    rawPixel := Cells.ofFn fun i =>
      if gate extended t.subpage i then asSigned 16 (readField .fr m (rawPixelField c i)) else t.rawPixel.get i }

/-- Every word of the frame that this COMPENSATE reads. -/
def readFrame (c : Config) (extended : Bool) (m : Memory) (t : FrameTemps) : FrameTemps :=
  readRawPixels c extended m (readSubpage extended m (readHeader c m t))

/-- `t1` (42_compensate.md rule R203). -/
def pixelT1 (N : Numerics) (cal : Cal) (k : FrameScalars) (i : Pixel) : F64 :=
  N.add (F64.lit 1 1) (N.mul (cal.kTa.get i) k.dTa)

/-- `t2` (42_compensate.md rule R203). -/
def pixelT2 (N : Numerics) (cal : Cal) (k : FrameScalars) (i : Pixel) : F64 :=
  N.add (F64.lit 1 1) (N.mul (cal.kV.get (rowParity i) (colParity i)) k.dV)

/-- Step 8, `pix` (42_compensate.md rule R203). -/
def pixelPix (N : Numerics) (cal : Cal) (k : FrameScalars) (raw : Int) (i : Pixel) : F64 :=
  N.sub (N.mul (N.ofInt raw) k.gain)
    (N.mul (N.mul (N.ofInt (sext (cal.offsetRef.get i))) (pixelT1 N cal k i)) (pixelT2 N cal k i))

/-- Step 8, `To` (42_compensate.md rule R204). -/
def pixelTo (N : Numerics) (cal : Cal) (k : FrameScalars) (raw : Int) (i : Pixel) : F64 :=
  N.sub (N.pow (N.add (N.div (pixelPix N cal k raw i) (cal.aRef.get i)) k.tAr) F64.quarter) (F64.lit 27315 100)

/-- Step 8, the write: the gated cells take their temperature, the others keep theirs (42_compensate.md rules R201, R205). -/
def refresh (N : Numerics) (extended : Bool) (cal : Cal) (t : FrameTemps) (k : FrameScalars) (old : Cells 768 F64) : Cells 768 F64 :=
  Cells.ofFn fun i => if gate extended t.subpage i then pixelTo N cal k (t.rawPixel.get i) i else old.get i

/-! ### The operation -/

/-- The cells of `TO` after step 8. -/
def State.nextTemps (s : State) : Cells 768 F64 :=
  let t := readFrame s.cfg s.mode.extended s.din s.work.frm
  refresh s.cfg.numerics s.mode.extended s.cal t (frameScalars s.cfg.numerics s.cal t) s.tObj

/-- The writes of a COMPENSATE that passed its tests, step 9 over the cells as they stand after step 8
(42_compensate.md rule R190, 43_track.md rule R220). -/
def State.commitFrame (s : State) : State :=
  { s with
    tObj := s.nextTemps
    np := track s.cfg.numerics s.nextTemps
    status := { s.status with eAor := s.status.eAor || compensateOutOfRange s.cfg } }

/-- A COMPENSATE that passed its tests. -/
def State.runCompensate (s : State) : State := s.commitFrame.finish 0#32

/-- COMPENSATE (42_compensate.md rule R190). An ill-formed configuration is refused before the frame is read (log 10). -/
def execCompensate (s : State) : Host.Outcome State Fault Refusal :=
  match compensateError s with
  | some e => .next (s.raise e noDiag)
  | none => if compensateConfigWf s.cfg then .next s.runCompensate else .refused .illFormedConfig

end Sys2Proof.Machine
end

