-- ==== Sys2Proof/Machine/Extract.lean ====
section
/-! DEFINITION. BFX: EXTRACT and its pseudo-operations SEXT6 and NIBBLE (40_extract.md). -/

namespace Sys2Proof.Machine

/-- The command EXTRACT: the field's value, or `IllegalOperand` outside the domain (40_extract.md rules R121, R123). -/
def extractCommand (signed : Bool) (width start : Nat) (word : Word) (s : State) : State :=
  if legalSlice start width then s.finish (extractBits word start width signed) else s.raise .illegalOperand noDiag

/-- EXTRACT (40_extract.md rule R121). -/
def execExtract (signed : Bool) (width : BitVec 5) (start : BitVec 4) (word : Word) (s : State) :
    Host.Outcome State Fault Refusal :=
  .next (extractCommand signed width.toNat start.toNat word s)

/-- SEXT6: `EXTRACT v, 0, 6, s` (40_extract.md rule R124). -/
def execSext6 (v : BitVec 6) (s : State) : Host.Outcome State Fault Refusal :=
  .next (extractCommand true 6 0 (v.setWidth 16) s)

/-- NIBBLE: `EXTRACT w, 4*j, 4, s` (40_extract.md rule R125). -/
def execNibble (w : Word) (j : BitVec 2) (s : State) : Host.Outcome State Fault Refusal :=
  .next (extractCommand true 4 (4 * j.toNat) w s)

end Sys2Proof.Machine
end

