-- ==== Sys2Proof/Machine/Dispatch.lean ====
section
/-! DEFINITION. One arm per instruction. -/

namespace Sys2Proof.Machine

/-- The meaning of an instruction. -/
def exec (i : Instr) (s : State) : Host.Outcome State Fault Refusal :=
  match i with
  | .extract signed width start word => Sys2Proof.Machine.execExtract signed width start word s
  | .decode skip => Sys2Proof.Machine.execDecode skip s
  | .compensate => Sys2Proof.Machine.execCompensate s
  | .sext6 v => Sys2Proof.Machine.execSext6 v s
  | .nibble w j => Sys2Proof.Machine.execNibble w j s
  | .w2410 a b c d => Sys2Proof.Machine.execW2410 a b c d s
  | .w2420 a b c d => Sys2Proof.Machine.execW2420 a b c d s
  | .w2432 l m h => Sys2Proof.Machine.execW2432 l m h s
  | .w2433 l h => Sys2Proof.Machine.execW2433 l h s
  | .w2434 a b c d => Sys2Proof.Machine.execW2434 a b c d s
  | .w2436 l h => Sys2Proof.Machine.execW2436 l h s
  | .w2437 l h => Sys2Proof.Machine.execW2437 l h s
  | .w2438 a b c d => Sys2Proof.Machine.execW2438 a b c d s
  | .w243C l h => Sys2Proof.Machine.execW243C l h s
  | .ptat25 v => Sys2Proof.Machine.execPtat25 v s
  | .eeGain v => Sys2Proof.Machine.execEeGain v s
  | .offsetAvg v => Sys2Proof.Machine.execOffsetAvg v s
  | .alphaAvg v => Sys2Proof.Machine.execAlphaAvg v s
  | .occRow k a b c d => Sys2Proof.Machine.execOccRow k a b c d s
  | .occCol k a b c d => Sys2Proof.Machine.execOccCol k a b c d s
  | .accRow k a b c d => Sys2Proof.Machine.execAccRow k a b c d s
  | .accCol k a b c d => Sys2Proof.Machine.execAccCol k a b c d s
  | .pixword p o k l h f => Sys2Proof.Machine.execPixword p o k l h f s
  | .rawPixel p v => Sys2Proof.Machine.execRawPixel p v s
  | .ambientProxyRaw v => Sys2Proof.Machine.execAmbientProxyRaw v s
  | .vddRaw v => Sys2Proof.Machine.execVddRaw v s
  | .vBe v => Sys2Proof.Machine.execVBe v s
  | .gainRam v => Sys2Proof.Machine.execGainRam v s
  | .statusWord b r => Sys2Proof.Machine.execStatusWord b r s

end Sys2Proof.Machine
end

