-- ==== Sys2Proof/Machine/Step.lean ====
section
/-! DEFINITION. One step: the host's next request (20_memory.md rules R63, R66; 30_encoding.md rule R100). -/

namespace Sys2Proof.Machine

/-- One operation. With no request TSCD is in its one state "ready" (10_state.md rule R22) and nothing changes; a reset is
applied; a command word is decoded and its instruction runs with its byte string in the input buffer, and a word that is no
instruction is answered `IllegalCommand` (60_exceptions.md rule R257). -/
def step (s : State) : Host.Outcome State Fault Refusal :=
  match s.inbox with
  | [] => .next s
  | .reset draw :: rest => .next (s.applyReset draw rest)
  | .command cw din :: rest =>
    match decodeCommand cw with
    | .ok i => exec i (s.accept din rest)
    | .error _ => .next (s.accept din rest).rejectCommand

/-- The state whose next step fetches the bits of one opcode-table row as its command word, no byte on the data-in port. -/
def State.withFetchWord (s : State) (nbits w : Nat) : State :=
  s.issueFirst (.command (tableCommand nbits w) Memory.empty)

end Sys2Proof.Machine
end

