-- ==== Sys2Proof/Safety.lean ====
section
/-! DEFINITION. The terms claims are stated in: the value of a field and of an `f64` written independently of the model's own
operations, the invariant of the state between operations, and the record words of an image run one after another. -/

namespace Sys2Proof.Machine

/-! ### Values -/

/-- The value of a sub-field by integer division (00_scope.md rules R9, R10): `zext_n` or `sext_n` of
`word[start+width-1 : start]`. -/
def fieldInt (word : Word) (start width : Nat) (signed : Bool) : Int :=
  let v : Nat := word.toNat / 2 ^ start % 2 ^ width
  if signed = true ∧ 2 ^ (width - 1) ≤ v then (v : Int) - 2 ^ width else v

/-- The real number a finite pattern stands for; none for an infinity or a NaN. -/
def f64Value (x : F64) : Option ℚ :=
  if F64.isFinite x then
    some ((if F64.neg x then -1 else 1) * (F64.mant x : ℚ) * (2 : ℚ) ^ ((F64.scale x : ℤ) - 1075))
  else none

/-- The word of the EEPROM image at a logical address (20_memory.md rule R51). -/
def eeWord (m : Memory) (a : Nat) : Word := m.word (a - 0x2400)

/-- The word of the frame at a logical address below 0x8000 (20_memory.md rule R52). -/
def frWord (m : Memory) (a : Nat) : Word := m.word (a - 0x0400)

/-! ### Responses -/

/-- Sixteen zero words (30_encoding.md rule R106). -/
def zeroWords : Cells 16 Word := Cells.ofFn fun _ => 0#16

/-- The state `s` after an operation that answers and changes nothing else but `STATUS.LAST_ERR`: the response reports the
status and mode as they are after it, and the input buffer is discarded (30_encoding.md rule R106, 10_state.md rules R21,
R23). -/
def answered (s : State) (code : BitVec 4) (value : I32) (diag : Cells 16 Word) : State :=
  { s with
    status := { s.status with lastErr := code }
    resp :=
      some { code := code, value := value, diag := diag, status := { s.status with lastErr := code }, mode := s.mode }
    din := Memory.empty }

/-- The image carries the two signatures (41_decode.md rule R143). -/
def signaturesMatch (c : Config) (m : Memory) : Prop :=
  (∀ j : Fin 6, m.identityByte (c.idOff + j) = c.idSig.get j) ∧ (∀ j : Fin 8, m.identityByte (c.cfgOff + j) = c.cfgSig.get j)

/-! ### The state between operations -/

/-- The invariant of the state between operations: the input buffer is discarded (10_state.md rule R21), the host's byte strings are
in canonical form, the mode is the strap (10_state.md rule R23), only the codes 0 to 7 are produced (60_exceptions.md rule
R251), the last response reports the present status and mode (30_encoding.md rule R106), and, with the default field table,
the accessor never left its ranges (60_exceptions.md rule R254) and a committed `offset_ref` lies in its range
(10_state.md rule R30). -/
structure State.Inv (s : State) : Prop where
  din_discarded : s.din = Memory.empty
  queue_canonical : ∀ cw m, Request.command cw m ∈ s.inbox → m.wf = true
  mode_is_strap : s.mode.extended = s.cfg.extended
  code_produced : s.status.lastErr.toNat ≤ 7
  response_current : ∀ r, s.resp = some r → r.code = s.status.lastErr ∧ r.status = s.status ∧ r.mode = s.mode
  accessor_in_range : hasDefaults s.cfg → s.status.eAor = false
  offset_in_range : hasDefaults s.cfg → s.status.calValid = true →
    ∀ i : Pixel, -1605632 ≤ (s.cal.offsetRef.get i).toInt ∧ (s.cal.offsetRef.get i).toInt ≤ 1507327

/-- The head of the host's queue is a reset. -/
def State.resetPending (s : State) : Bool :=
  match s.inbox with
  | .reset _ :: _ => true
  | .command _ _ :: _ => false
  | [] => false

/-- The configuration gives every operation a meaning (20_memory.md rule R58, 40_extract.md rule R123; log 10). -/
def configWf (c : Config) : Bool := decodeConfigWf c && compensateConfigWf c

/-- An instruction of the command part of spec/opcode_table.json. -/
def isCommand : Instr → Bool
  | .extract _ _ _ _ => true
  | .decode _ => true
  | .compensate => true
  | .sext6 _ => true
  | .nibble _ _ => true
  | .w2410 _ _ _ _ => false
  | .w2420 _ _ _ _ => false
  | .w2432 _ _ _ => false
  | .w2433 _ _ => false
  | .w2434 _ _ _ _ => false
  | .w2436 _ _ => false
  | .w2437 _ _ => false
  | .w2438 _ _ _ _ => false
  | .w243C _ _ => false
  | .ptat25 _ => false
  | .eeGain _ => false
  | .offsetAvg _ => false
  | .alphaAvg _ => false
  | .occRow _ _ _ _ _ => false
  | .occCol _ _ _ _ _ => false
  | .accRow _ _ _ _ _ => false
  | .accCol _ _ _ _ _ => false
  | .pixword _ _ _ _ _ _ => false
  | .rawPixel _ _ => false
  | .ambientProxyRaw _ => false
  | .vddRaw _ => false
  | .vBe _ => false
  | .gainRam _ => false
  | .statusWord _ _ => false

/-! ### The record words of an image, run one after another -/

/-- Run the record words of the given rows, in order, on the temporaries. -/
def runRecords (m : Memory) : List RecordRow → State → Host.Outcome State Fault Refusal
  | [], s => .next s
  | r :: rs, s =>
    match exec (rowInstr s.cfg m r) s with
    | .next t => runRecords m rs t
    | .fault f => .fault f
    | .refused r => .refused r

/-- The rows of the EEPROM image, row 0x2438 before row 0x2434, which uses its `K_V_scale` (41_decode.md rule R141). -/
def eepromRows : List RecordRow :=
  [.w2410, .w2420, .w2432, .w2433, .w2438, .w2434, .w2436, .w2437, .w243C, .ptat25, .eeGain, .offsetAvg, .alphaAvg] ++
    (List.finRange 6).map .occRow ++ (List.finRange 8).map .occCol ++ (List.finRange 6).map .accRow ++
    (List.finRange 8).map .accCol ++ (List.finRange 768).map .pixword

/-- The rows of a frame that COMPENSATE reads, in its order: the header, the status word in extended mode, and the pixels that
pass the gate (42_compensate.md rules R192, R200 to R202). -/
def frameRows (extended : Bool) (m : Memory) : List RecordRow :=
  [.vddRaw, .ambientProxyRaw, .vBe, .gainRam] ++ (if extended then [.statusWord] else []) ++
    ((List.finRange 768).filter (gate extended ((readStatusWord m).toNat % 2))).map .rawPixel

end Sys2Proof.Machine
end

