-- ==== Sys2Proof/Certificates/Slice0/Obligations.lean ====
section
/-! DEFINITION. The statements for the provers, in the order of OBLIGATIONS.json. -/

open Sys2Proof Sys2Proof.Machine

/-! ### Encodings and the command port -/

/-- 30_encoding.md sections 2, 3, 5, 6: no bit of an encoding is dropped. That a word of the SEXT6 or NIBBLE row is spelt with that
row's constructor (`WellFormed`), and that a record word is decoded together with its row, is the model's choice (log 12). -/
def Obligations.EncodeThenDecodeGivesInstruction : Prop :=
  ∀ i : Instr, i.WellFormed → decode (encode i) = .ok i

/-- 30_encoding.md rule R110 for every word of every row, and the same for every command word. That each code has one instruction,
and so that what a code decodes to is well-formed, is the model's choice of spelling (log 12). -/
def Obligations.DecodeThenEncodeGivesCode : Prop :=
  ∀ (c : Code) (i : Instr), decode c = .ok i → i.WellFormed ∧ encode i = c

/-- Words written out in 95_test_vectors.md (V1, V6, V8, V10, V18, V19, V20, V22, image E2) decode to what they stand for. -/
def Obligations.HandWrittenWordsDecode : Prop :=
  decodeCommand 0x19A88000#32 = .ok (.extract true 6#5 10#4 0x8000#16) ∧
  decodeCommand 0x187C7FFF#32 = .ok (.extract true 1#5 15#4 0x7FFF#16) ∧
  decodeCommand 0x19308F17#32 = .ok (.nibble 0x8F17#16 3#2) ∧
  decodeCommand 0x1980003F#32 = .ok (.sext6 63#6) ∧
  decodeCommand 0x28000000#32 = .ok (.decode true) ∧
  decodeCommand 0x20000000#32 = .ok (.decode false) ∧
  decodeCommand 0x30000000#32 = .ok .compensate ∧
  decodeCommand 0x12015952#32 = .error (.reservedBits 1#4) ∧
  decodeCommand 0x40000000#32 = .error (.reservedOpcode 4#4) ∧
  decodeRow .w2410 0x9A65#16 = .w2410 5#4 6#4 10#4 9#4 ∧
  decodeRow .w2432 0x5952#16 = .w2432 82#8 1#2 22#6 ∧
  decodeRow (.pixword 1) 0x7DF7#16 = .pixword 1 1#1 3#3 15#4 1#2 31#6

/-- 30_encoding.md rules R101 to R105 (decision D3): which command words are instructions. -/
def Obligations.CommandWordsAcceptedExactly : Prop :=
  ∀ cw : CmdWord,
    (∃ i, decodeCommand cw = .ok i) ↔
      (cw.toNat / 2 ^ 28 = 1 ∧ cw.toNat / 2 ^ 16 % 4 = 0) ∨
      (cw.toNat / 2 ^ 28 = 2 ∧ cw.toNat % 2 ^ 27 = 0) ∨
      (cw.toNat / 2 ^ 28 = 3 ∧ cw.toNat % 2 ^ 28 = 0)

/-- 20_memory.md rule R66, 30_encoding.md rule R100: the step whose request is an instruction's word is that instruction, run
with the request's byte string in the input buffer and the request gone from the host's queue. -/
def Obligations.StepRunsDecodedInstruction : Prop :=
  ∀ (s : State) (cw : CmdWord) (m : Memory) (rest : List Request) (i : Instr),
    s.inbox = .command cw m :: rest → decodeCommand cw = .ok i →
      step s = exec i { s with din := m, inbox := rest }

/-- 60_exceptions.md rule R257 (decision D3): a word that is no instruction is answered code 6 and changes `LAST_ERR` only. -/
def Obligations.IllegalCommandIsAnswered : Prop :=
  ∀ (s : State) (cw : CmdWord) (m : Memory) (rest : List Request) (e : Reject),
    s.inbox = .command cw m :: rest → decodeCommand cw = .error e →
      step s = .next (answered { s with inbox := rest } 6#4 0#32 zeroWords)

/-- 10_state.md rule R22; 70_reset_and_hazards.md rule R280, 10_state.md rule R39 (decisions D29, D38): with nothing asked, nothing
changes; what a reset leaves: the open values are those the event brings (log 3), the ports are empty (logs 4, 5), the rest of
the host's queue stands (log 1). -/
def Obligations.ReadyAndResetSteps : Prop :=
  (∀ s : State, s.inbox = [] → step s = .next s) ∧
  (∀ (s : State) (d : ResetDraw) (rest : List Request),
    s.inbox = .reset d :: rest →
      step s = .next
        { cfg := s.cfg
          mode := { extended := s.cfg.extended }
          status := { calValid := false, wTgc := false, eAor := false, lastErr := 0#4 }
          cal := d.cal
          tObj := d.tObj
          np := d.np
          din := Memory.empty
          resp := none
          work := d.work
          inbox := rest })

/-- 10_state.md rule R39 (decision D29), 00_scope.md rule R8: the values the spec gives the machine right after reset. -/
def Obligations.ResetStateValues : Prop :=
  State.reset.status = { calValid := false, wTgc := false, eAor := false, lastErr := 0#4 } ∧
  State.reset.mode.extended = State.reset.cfg.extended ∧
  hasDefaults State.reset.cfg ∧ State.reset.din = Memory.empty ∧ State.reset.inbox = []

/-! ### EXTRACT, SEXT6, NIBBLE -/

/-- 40_extract.md rule R121: for every operand of its domain EXTRACT answers the field's value; outside it, by the spec's own decision
(rule R123, D33; the code: 60_exceptions.md rule R251, D39), `IllegalOperand` (code 7) with the value 0. Either way nothing
changes but the response and `LAST_ERR`. -/
def Obligations.ExtractAnswersField : Prop :=
  ∀ (signed : Bool) (width : BitVec 5) (start : BitVec 4) (word : Word) (s : State),
    (1 ≤ width.toNat → start.toNat + width.toNat ≤ 16 →
      ∃ v : I32, v.toInt = fieldInt word start.toNat width.toNat signed ∧
        exec (.extract signed width start word) s = .next (answered s 0#4 v zeroWords)) ∧
    (width.toNat = 0 ∨ 16 < start.toNat + width.toNat →
      exec (.extract signed width start word) s = .next (answered s 7#4 0#32 zeroWords))

/-- 40_extract.md rule R122: a signed extraction of width n lies in [-2^(n-1), 2^(n-1) - 1], an unsigned one in
[0, 2^n - 1]. -/
def Obligations.ExtractionRange : Prop :=
  ∀ (word : Word) (start width : Nat), legalSlice start width = true →
    (-(2 ^ (width - 1)) ≤ extractInt word start width true ∧ extractInt word start width true ≤ 2 ^ (width - 1) - 1) ∧
    (0 ≤ extractInt word start width false ∧ extractInt word start width false ≤ 2 ^ width - 1)

/-- 40_extract.md rule R124: SEXT6 answers v for v up to 31 and v - 64 above. -/
def Obligations.Sext6AnswersSignedValue : Prop :=
  ∀ (v : BitVec 6) (s : State),
    ∃ r : I32, r.toInt = (if v.toNat ≤ 31 then (v.toNat : Int) else (v.toNat : Int) - 64) ∧
      exec (.sext6 v) s = .next (answered s 0#4 r zeroWords)

/-- 40_extract.md rule R125 (element order: decision D10): NIBBLE answers the j-th signed 4-bit element. -/
def Obligations.NibbleAnswersElement : Prop :=
  ∀ (w : Word) (j : BitVec 2) (s : State),
    ∃ r : I32,
      r.toInt = (if w.toNat / 16 ^ j.toNat % 16 ≤ 7 then ((w.toNat / 16 ^ j.toNat % 16 : Nat) : Int)
        else ((w.toNat / 16 ^ j.toNat % 16 : Nat) : Int) - 16) ∧
      exec (.nibble w j) s = .next (answered s 0#4 r zeroWords)

/-! ### The EEPROM record words: each changes the temporaries its rule names, and nothing else (log 6) -/

/-- 41_decode.md rules R148, R150 (placement of 0x2410: decision D7; staging: log 6): the rows that produce an `f64`, exact
under the default `NUMERICS`. -/
def Obligations.TemperatureScaleRows : Prop :=
  (∀ (rem col row a : BitVec 4) (s : State),
    ∃ p : F64, (s.cfg.numerics = .binary64 → f64Value p = some ((a.toNat : ℚ) / 4 + 8)) ∧
      exec (.w2410 rem col row a) s = .next
        { s with work := { s.work with dec := { s.work.dec with
            remScale := rem.toNat, colScale := col.toNat, rowScale := row.toNat, aPtatEE := a.toNat,
            staged := { s.work.dec.staged with aPtat := p } } } }) ∧
  (∀ (low : BitVec 8) (mid : BitVec 2) (kv : BitVec 6) (s : State),
    ∃ kt kp : F64,
      (s.cfg.numerics = .binary64 →
        f64Value kt = some ((mid.toNat * 256 + low.toNat : ℚ) / 8) ∧ f64Value kp = some ((kv.toInt : ℚ) / 4096)) ∧
      exec (.w2432 low mid kv) s = .next
        { s with work := { s.work with dec := { s.work.dec with
            staged := { s.work.dec.staged with kTPtat := kt, kVPtat := kp } } } })

/-- 41_decode.md rules R149, R154, R155, R157 (placement: decisions D7 to D9; log 6): the rows that produce integers. -/
def Obligations.ScaleAndAverageRows : Prop :=
  (∀ (rem col row a : BitVec 4) (s : State),
    exec (.w2420 rem col row a) s = .next
      { s with work := { s.work with dec := { s.work.dec with
          aRemScale := rem.toNat, aColScale := col.toNat, aRowScale := row.toNat, aScale := (a.toNat : Int) + 30 } } }) ∧
  (∀ (u kv s1 s2 : BitVec 4) (s : State),
    exec (.w2438 u kv s1 s2) s = .next
      { s with work := { s.work with dec := { s.work.dec with
          kvScale := kv.toNat, kTaScale1 := (s1.toNat : Int) + 8, kTaScale2 := s2.toNat } } }) ∧
  (∀ (tgc ksTa : BitVec 8) (s : State),
    exec (.w243C tgc ksTa) s = .next
      { s with work := { s.work with dec := { s.work.dec with tgc := tgc.toInt, ksTa := ksTa.toInt } } }) ∧
  (∀ (v : Word) (s : State),
    exec (.offsetAvg v) s = .next { s with work := { s.work with dec := { s.work.dec with offsetAvg := v.toInt } } }) ∧
  (∀ (v : Word) (s : State),
    exec (.alphaAvg v) s = .next { s with work := { s.work with dec := { s.work.dec with aAvg := v.toNat } } })

/-- 41_decode.md rules R151, R156 (staging: log 6). -/
def Obligations.DirectConstantRows : Prop :=
  (∀ (vdd kVdd : BitVec 8) (s : State),
    exec (.w2433 vdd kVdd) s = .next
      { s with work := { s.work with dec := { s.work.dec with
          staged := { s.work.dec.staged with vdd25 := vdd, kVdd := kVdd } } } }) ∧
  (∀ (v : Word) (s : State),
    exec (.ptat25 v) s = .next
      { s with work := { s.work with dec := { s.work.dec with
          staged := { s.work.dec.staged with vPtat25 := v } } } }) ∧
  (∀ (v : Word) (s : State),
    exec (.eeGain v) s = .next
      { s with work := { s.work with dec := { s.work.dec with
          staged := { s.work.dec.staged with gainEe := v } } } })

/-- 41_decode.md rule R152 (decisions D11, D12; staging: log 6): the word sets the staged grid and nothing else; with the default
`KV_MAP` and `NUMERICS`, to the exact quotients. -/
def Obligations.W2434SetsVoltageGrid : Prop :=
  ∀ (n0 n1 n2 n3 : BitVec 4) (s : State),
    ∃ q : Quad F64,
      (s.cfg.numerics = .binary64 → s.cfg.kvMap = defaultKvMap → 0 ≤ s.work.dec.kvScale → s.work.dec.kvScale ≤ 15 →
        f64Value q.at00 = some ((n0.toInt : ℚ) / 2 ^ s.work.dec.kvScale.toNat) ∧
        f64Value q.at10 = some ((n1.toInt : ℚ) / 2 ^ s.work.dec.kvScale.toNat) ∧
        f64Value q.at01 = some ((n2.toInt : ℚ) / 2 ^ s.work.dec.kvScale.toNat) ∧
        f64Value q.at11 = some ((n3.toInt : ℚ) / 2 ^ s.work.dec.kvScale.toNat)) ∧
      exec (.w2434 n0 n1 n2 n3) s = .next
        { s with work := { s.work with dec := { s.work.dec with
            staged := { s.work.dec.staged with kV := q } } } }

/-- 41_decode.md rule R153 (decision D11; log 6): the two words set the grid and nothing else; with the default `KTA_MAP`, which cell each
byte sets. -/
def Obligations.W2436AndW2437SetAmbientGrid : Prop :=
  ∀ (l h : BitVec 8) (s : State),
    ∃ p q : Quad Int,
      (s.cfg.ktaMap = defaultKtaMap →
        p = { s.work.dec.kTa2x2 with at01 := l.toInt, at11 := h.toInt } ∧
        q = { s.work.dec.kTa2x2 with at00 := l.toInt, at10 := h.toInt }) ∧
      exec (.w2436 l h) s = .next { s with work := { s.work with dec := { s.work.dec with kTa2x2 := p } } } ∧
      exec (.w2437 l h) s = .next { s with work := { s.work with dec := { s.work.dec with kTa2x2 := q } } }

/-- 41_decode.md rules R158, R159 (decisions D9, D10; log 6): word `k` of an array sets its elements 4k to 4k+3. -/
def Obligations.NibbleArrayRows : Prop :=
  ∀ (a b c d : BitVec 4) (s : State),
    (∀ k : Fin 6, ∃ v : Cells 24 Int,
      (∀ j : Fin 24, v.get j = if j.val = 4 * k then a.toInt else if j.val = 4 * k + 1 then b.toInt
        else if j.val = 4 * k + 2 then c.toInt else if j.val = 4 * k + 3 then d.toInt else s.work.dec.offsetRow.get j) ∧
      exec (.occRow k a b c d) s =
        .next { s with work := { s.work with dec := { s.work.dec with offsetRow := v } } }) ∧
    (∀ k : Fin 8, ∃ v : Cells 32 Int,
      (∀ j : Fin 32, v.get j = if j.val = 4 * k then a.toInt else if j.val = 4 * k + 1 then b.toInt
        else if j.val = 4 * k + 2 then c.toInt else if j.val = 4 * k + 3 then d.toInt else s.work.dec.offsetCol.get j) ∧
      exec (.occCol k a b c d) s =
        .next { s with work := { s.work with dec := { s.work.dec with offsetCol := v } } }) ∧
    (∀ k : Fin 6, ∃ v : Cells 24 Int,
      (∀ j : Fin 24, v.get j = if j.val = 4 * k then a.toInt else if j.val = 4 * k + 1 then b.toInt
        else if j.val = 4 * k + 2 then c.toInt else if j.val = 4 * k + 3 then d.toInt else s.work.dec.aRow.get j) ∧
      exec (.accRow k a b c d) s =
        .next { s with work := { s.work with dec := { s.work.dec with aRow := v } } }) ∧
    (∀ k : Fin 8, ∃ v : Cells 32 Int,
      (∀ j : Fin 32, v.get j = if j.val = 4 * k then a.toInt else if j.val = 4 * k + 1 then b.toInt
        else if j.val = 4 * k + 2 then c.toInt else if j.val = 4 * k + 3 then d.toInt else s.work.dec.aCol.get j) ∧
      exec (.accCol k a b c d) s =
        .next { s with work := { s.work with dec := { s.work.dec with aCol := v } } })

/-- 41_decode.md rules R160 to R163 (decision D7; log 6): the sub-fields of one pixel; the alpha remainder is sign-extended
from 6 bits. -/
def Obligations.PixwordSetsPixel : Prop :=
  ∀ (i : Pixel) (o : BitVec 1) (k : BitVec 3) (lo : BitVec 4) (hi : BitVec 2) (p : BitVec 6) (s : State),
    ∃ (vo vk va vp : Cells 768 Int),
      (∀ j, vo.get j = if j = i then (o.toNat : Int) else s.work.dec.outlier.get j) ∧
      (∀ j, vk.get j = if j = i then k.toInt else s.work.dec.kTaIncrement.get j) ∧
      (∀ j, va.get j = if j = i then
          (if hi.toNat * 16 + lo.toNat ≤ 31 then ((hi.toNat * 16 + lo.toNat : Nat) : Int)
           else ((hi.toNat * 16 + lo.toNat : Nat) : Int) - 64)
        else s.work.dec.alphaRem.get j) ∧
      (∀ j, vp.get j = if j = i then p.toInt else s.work.dec.pixOff.get j) ∧
      exec (.pixword i o k lo hi p) s = .next
        { s with work := { s.work with dec := { s.work.dec with
            outlier := vo, kTaIncrement := vk, alphaRem := va, pixOff := vp } } }

/-! ### The frame record words -/

/-- 42_compensate.md rules R192, R193 (decisions D17, D18; log 6): the four header words, signed. -/
def Obligations.FrameHeaderRows : Prop :=
  ∀ (v : Word) (s : State),
    exec (.vddRaw v) s = .next { s with work := { s.work with frm := { s.work.frm with vddRaw := v.toInt } } } ∧
    exec (.ambientProxyRaw v) s =
      .next { s with work := { s.work with frm := { s.work.frm with ambientProxyRaw := v.toInt } } } ∧
    exec (.vBe v) s = .next { s with work := { s.work with frm := { s.work.frm with vBe := v.toInt } } } ∧
    exec (.gainRam v) s = .next { s with work := { s.work with frm := { s.work.frm with gainRam := v.toInt } } }

/-- 42_compensate.md rules R200, R202 (decisions D17, D19, D20; log 6): the status word gives its bit 0, a pixel word its signed
value. -/
def Obligations.StatusWordAndPixelRows : Prop :=
  (∀ (b : BitVec 1) (r : BitVec 15) (s : State),
    exec (.statusWord b r) s = .next { s with work := { s.work with frm := { s.work.frm with subpage := b.toNat } } }) ∧
  (∀ (i : Pixel) (v : Word) (s : State), ∃ c : Cells 768 Int,
    (∀ j, c.get j = if j = i then v.toInt else s.work.frm.rawPixel.get j) ∧
    exec (.rawPixel i v) s = .next { s with work := { s.work with frm := { s.work.frm with rawPixel := c } } })

/-! ### DECODE -/

/-- 41_decode.md rules R140, R178 (decisions D24, D25; configuration: log 10): when DECODE completes, and everything it writes. -/
def Obligations.DecodeCompletes : Prop :=
  ∀ (skip : Bool) (s : State),
    s.status.calValid = false → s.din.len = 1664 → decodeConfigWf s.cfg = true →
    (skip = true ∨ signaturesMatch s.cfg s.din) →
      exec (.decode skip) s = .next
        { answered
            { s with
              status :=
                { s.status with
                  calValid := true
                  wTgc := s.status.wTgc || decide ((decodeImage s.cfg s.din s.work.dec).tgc ≠ 0)
                  eAor := s.status.eAor || (decodeAddrs s.cfg).any outOfRange } }
            0#4 0#32 zeroWords with
          cal := reconstruct s.cfg.numerics (decodeImage s.cfg s.din s.work.dec) }

/-- 41_decode.md rules R150, R151, R156: the scalars whose addresses and sub-field order the source gives, as committed. -/
def Obligations.DecodeCommitsSourceScalars : Prop :=
  ∀ (skip : Bool) (s : State), hasDefaults s.cfg →
    s.status.calValid = false → s.din.len = 1664 → (skip = true ∨ signaturesMatch s.cfg s.din) →
    ∃ t, exec (.decode skip) s = .next t ∧
      f64Value t.cal.kTPtat =
        some (((fieldInt (eeWord s.din 0x2432) 8 2 false * 256 + fieldInt (eeWord s.din 0x2432) 0 8 false : Int) : ℚ) / 8) ∧
      f64Value t.cal.kVPtat = some ((fieldInt (eeWord s.din 0x2432) 10 6 true : ℚ) / 4096) ∧
      (t.cal.vdd25.toNat : Int) = fieldInt (eeWord s.din 0x2433) 0 8 false ∧
      t.cal.kVdd.toInt = fieldInt (eeWord s.din 0x2433) 8 8 true ∧
      t.cal.vPtat25.toInt = fieldInt (eeWord s.din 0x240A) 0 16 true ∧
      t.cal.gainEe.toInt = fieldInt (eeWord s.din 0x241A) 0 16 true

/-- 41_decode.md rules R148, R152 with the default placement (decisions D7, D11, D12): `a_PTAT` and the four `K_V`, as
committed, exact. -/
def Obligations.DecodeCommitsTableScalars : Prop :=
  ∀ (skip : Bool) (s : State), hasDefaults s.cfg →
    s.status.calValid = false → s.din.len = 1664 → (skip = true ∨ signaturesMatch s.cfg s.din) →
    ∃ t, exec (.decode skip) s = .next t ∧
      f64Value t.cal.aPtat = some ((fieldInt (eeWord s.din 0x2410) 12 4 false : ℚ) / 4 + 8) ∧
      ∀ pr pc : Fin 2,
        f64Value (t.cal.kV.get pr pc) =
          some ((fieldInt (eeWord s.din 0x2434) (4 * (pr.val + 2 * pc.val)) 4 true : ℚ) /
            2 ^ (fieldInt (eeWord s.din 0x2438) 4 4 false).toNat)

/-- 41_decode.md rules R148, R149, R153 to R155, R157, 10_state.md rule R35 with the default placement (decisions D7 to D9, D11): the scalar
temporaries of a DECODE are the sub-fields of the image's words. -/
def Obligations.DecodeReadsScalarFields : Prop :=
  ∀ (c : Config) (m : Memory) (t : DecodeTemps), hasDefaults c →
    let d := decodeImage c m t
    d.remScale = fieldInt (eeWord m 0x2410) 0 4 false ∧
    d.colScale = fieldInt (eeWord m 0x2410) 4 4 false ∧
    d.rowScale = fieldInt (eeWord m 0x2410) 8 4 false ∧
    d.aPtatEE = fieldInt (eeWord m 0x2410) 12 4 false ∧
    d.aRemScale = fieldInt (eeWord m 0x2420) 0 4 false ∧
    d.aColScale = fieldInt (eeWord m 0x2420) 4 4 false ∧
    d.aRowScale = fieldInt (eeWord m 0x2420) 8 4 false ∧
    d.aScale = fieldInt (eeWord m 0x2420) 12 4 false + 30 ∧
    d.kvScale = fieldInt (eeWord m 0x2438) 4 4 false ∧
    d.kTaScale1 = fieldInt (eeWord m 0x2438) 8 4 false + 8 ∧
    d.kTaScale2 = fieldInt (eeWord m 0x2438) 12 4 false ∧
    d.tgc = fieldInt (eeWord m 0x243C) 0 8 true ∧
    d.ksTa = fieldInt (eeWord m 0x243C) 8 8 true ∧
    d.offsetAvg = fieldInt (eeWord m 0x2411) 0 16 true ∧
    d.aAvg = fieldInt (eeWord m 0x2421) 0 16 false ∧
    d.kTa2x2.at01 = fieldInt (eeWord m 0x2436) 0 8 true ∧
    d.kTa2x2.at11 = fieldInt (eeWord m 0x2436) 8 8 true ∧
    d.kTa2x2.at00 = fieldInt (eeWord m 0x2437) 0 8 true ∧
    d.kTa2x2.at10 = fieldInt (eeWord m 0x2437) 8 8 true

/-- 41_decode.md rules R158 to R163 with the default placement (decisions D7, D9, D10, D13): the array and per-pixel temporaries
of a DECODE are the sub-fields of the image's words. -/
def Obligations.DecodeReadsArrayFields : Prop :=
  ∀ (c : Config) (m : Memory) (t : DecodeTemps), hasDefaults c →
    let d := decodeImage c m t
    (∀ n : Fin 24, d.offsetRow.get n = fieldInt (eeWord m (0x2412 + n / 4)) (4 * (n % 4)) 4 true) ∧
    (∀ n : Fin 32, d.offsetCol.get n = fieldInt (eeWord m (0x2418 + n / 4)) (4 * (n % 4)) 4 true) ∧
    (∀ n : Fin 24, d.aRow.get n = fieldInt (eeWord m (0x2422 + n / 4)) (4 * (n % 4)) 4 true) ∧
    (∀ n : Fin 32, d.aCol.get n = fieldInt (eeWord m (0x2428 + n / 4)) (4 * (n % 4)) 4 true) ∧
    (∀ i : Pixel, d.kTaIncrement.get i = fieldInt (eeWord m (0x2440 + i)) 1 3 true) ∧
    (∀ i : Pixel, d.alphaRem.get i = fieldInt (eeWord m (0x2440 + i)) 4 6 true) ∧
    (∀ i : Pixel, d.pixOff.get i = fieldInt (eeWord m (0x2440 + i)) 10 6 true) ∧
    (∀ i : Pixel, d.outlier.get i = fieldInt (eeWord m (0x2440 + i)) 0 1 false)

/-- 41_decode.md rule R170: `K_Ta` is, under the default `NUMERICS`, the exact quotient, and `n_kta` lies in its range. -/
def Obligations.AmbientCoefficientFormula : Prop :=
  ∀ (t : DecodeTemps) (i : Pixel),
    (∀ pr pc : Fin 2, -128 ≤ t.kTa2x2.get pr pc ∧ t.kTa2x2.get pr pc ≤ 127) →
    -4 ≤ t.kTaIncrement.get i → t.kTaIncrement.get i ≤ 3 →
    0 ≤ t.kTaScale2 → t.kTaScale2 ≤ 15 → 8 ≤ t.kTaScale1 → t.kTaScale1 ≤ 23 →
    ∃ n : Int,
      n = (if i.val / 32 % 2 = 0 then (if i.val % 32 % 2 = 0 then t.kTa2x2.at00 else t.kTa2x2.at01)
          else (if i.val % 32 % 2 = 0 then t.kTa2x2.at10 else t.kTa2x2.at11)) +
        t.kTaIncrement.get i * 2 ^ t.kTaScale2.toNat ∧
      -131200 ≤ n ∧ n ≤ 98431 ∧
      f64Value ((reconstruct .binary64 t).kTa.get i) = some ((n : ℚ) / 2 ^ t.kTaScale1.toNat)

/-- 41_decode.md rule R171: `offset_ref` is the exact sum, no overflow, and lies in its range. -/
def Obligations.OffsetReferenceFormula : Prop :=
  ∀ (N : Numerics) (t : DecodeTemps) (i : Pixel) (r : Fin 24) (c : Fin 32), i.val = 32 * r.val + c.val →
    -32768 ≤ t.offsetAvg → t.offsetAvg ≤ 32767 →
    -8 ≤ t.offsetRow.get r → t.offsetRow.get r ≤ 7 → -8 ≤ t.offsetCol.get c → t.offsetCol.get c ≤ 7 →
    -32 ≤ t.pixOff.get i → t.pixOff.get i ≤ 31 →
    0 ≤ t.rowScale → t.rowScale ≤ 15 → 0 ≤ t.colScale → t.colScale ≤ 15 → 0 ≤ t.remScale → t.remScale ≤ 15 →
    ((reconstruct N t).offsetRef.get i).toInt =
        t.offsetAvg + t.offsetRow.get r * 2 ^ t.rowScale.toNat + t.offsetCol.get c * 2 ^ t.colScale.toNat +
          t.pixOff.get i * 2 ^ t.remScale.toNat ∧
      -1605632 ≤ ((reconstruct N t).offsetRef.get i).toInt ∧ ((reconstruct N t).offsetRef.get i).toInt ≤ 1507327

/-- 41_decode.md rule R172: `a_ref` is, under the default `NUMERICS`, the exact quotient, and `n_a` lies in its range. -/
def Obligations.SensitivityFormula : Prop :=
  ∀ (t : DecodeTemps) (i : Pixel) (r : Fin 24) (c : Fin 32), i.val = 32 * r.val + c.val →
    0 ≤ t.aAvg → t.aAvg ≤ 65535 →
    -8 ≤ t.aRow.get r → t.aRow.get r ≤ 7 → -8 ≤ t.aCol.get c → t.aCol.get c ≤ 7 →
    -32 ≤ t.alphaRem.get i → t.alphaRem.get i ≤ 31 →
    0 ≤ t.aRowScale → t.aRowScale ≤ 15 → 0 ≤ t.aColScale → t.aColScale ≤ 15 → 0 ≤ t.aRemScale → t.aRemScale ≤ 15 →
    30 ≤ t.aScale → t.aScale ≤ 45 →
    ∃ n : Int,
      n = t.aAvg + t.aRow.get r * 2 ^ t.aRowScale.toNat + t.aCol.get c * 2 ^ t.aColScale.toNat +
          t.alphaRem.get i * 2 ^ t.aRemScale.toNat ∧
      -1572864 ≤ n ∧ n ≤ 1540095 ∧
      f64Value ((reconstruct .binary64 t).aRef.get i) = some ((n : ℚ) / 2 ^ t.aScale.toNat)

/-- 41_decode.md rules R142, R144, R179 (decisions D23 to D25, D31): the three error responses of DECODE, in their order; each
changes `LAST_ERR` only. -/
def Obligations.DecodeErrorsInOrder : Prop :=
  (∀ (skip : Bool) (s : State), s.status.calValid = true →
    exec (.decode skip) s = .next (answered s 5#4 0#32 zeroWords)) ∧
  (∀ (skip : Bool) (s : State), s.status.calValid = false → s.din.len ≠ 1664 →
    exec (.decode skip) s = .next (answered s 1#4 0#32 zeroWords)) ∧
  (∀ s : State, s.status.calValid = false → s.din.len = 1664 → decodeConfigWf s.cfg = true →
    ¬ signaturesMatch s.cfg s.din →
    ∃ d : Cells 16 Word, (∀ k : Fin 16, d.get k = eeWord s.din (0x2400 + k)) ∧
      exec (.decode false) s = .next (answered s 2#4 0#32 d))

/-- 41_decode.md rule R145: with the check skipped every 1664-byte image decodes; with any other signatures the next state is the
same but for the signatures themselves, and `IdentityMismatch` (code 2) is never answered. -/
def Obligations.SkippedCheckDecodesEveryImage : Prop :=
  (∀ (s : State) (idSig : Cells 6 Byte) (cfgSig : Cells 8 Byte),
    s.status.calValid = false → s.din.len = 1664 → decodeConfigWf s.cfg = true →
    ∃ t, exec (.decode true) s = .next t ∧ t.status.calValid = true ∧
      exec (.decode true) { s with cfg := { s.cfg with idSig := idSig, cfgSig := cfgSig } } =
        .next { t with cfg := { s.cfg with idSig := idSig, cfgSig := cfgSig } }) ∧
  (∀ (s t : State) (r : Response), exec (.decode true) s = .next t → t.resp = some r → r.code ≠ 2#4)

/-- 41_decode.md rules R141, R143, R144: a DECODE depends on nothing of the image but its length and the words at the addresses of
the field table, and with the check made on the fourteen identity bytes and, for `diag`, on the words 0 to 15. -/
def Obligations.DecodeDependsOnItsWordsOnly : Prop :=
  ∀ (s : State) (m m' : Memory), m.len = m'.len →
    (∀ a ∈ decodeAddrs s.cfg, memRead .ee m a = memRead .ee m' a) →
    exec (.decode true) { s with din := m } = exec (.decode true) { s with din := m' } ∧
    ((∀ j : Fin 6, m.identityByte (s.cfg.idOff + j) = m'.identityByte (s.cfg.idOff + j)) →
      (∀ j : Fin 8, m.identityByte (s.cfg.cfgOff + j) = m'.identityByte (s.cfg.cfgOff + j)) →
      (∀ k : Fin 16, m.word k = m'.word k) →
      exec (.decode false) { s with din := m } = exec (.decode false) { s with din := m' })

/-- 10_state.md rules R20, R35, R36: what an earlier operation left in the temporaries reaches no result of a command. -/
def Obligations.CommandsIgnoreOldTemporaries : Prop :=
  ∀ (i : Instr) (s t : State) (w : Work), isCommand i = true → exec i s = .next t →
    exec i { s with work := w } = .next { t with work := w }

/-- 41_decode.md rules R140, R141, R178 with the default field table (log 6): the calibration DECODE commits is the one that the
record words of its image, run one after another, leave in the temporaries. -/
def Obligations.DecodeIsItsRecordWords : Prop :=
  ∀ s : State, hasDefaults s.cfg → s.status.calValid = false → s.din.len = 1664 →
    ∃ t u, runRecords s.din eepromRows s = .next t ∧ exec (.decode true) s = .next u ∧
      u.cal = reconstruct s.cfg.numerics t.work.dec ∧ u.status.wTgc = (s.status.wTgc || decide (t.work.dec.tgc ≠ 0)) ∧
      t = { s with work := { s.work with dec := t.work.dec } }

/-! ### COMPENSATE -/

/-- 42_compensate.md rules R191, R209 (decisions D26, D27): the three error responses of COMPENSATE, in their order; each
changes `LAST_ERR` only. -/
def Obligations.CompensateErrorsInOrder : Prop :=
  ∀ s : State,
    (s.status.calValid = false → exec .compensate s = .next (answered s 4#4 0#32 zeroWords)) ∧
    (s.status.calValid = true → s.din.len < (if s.mode.extended then 1728 else 1664) →
      exec .compensate s = .next (answered s 3#4 0#32 zeroWords)) ∧
    (s.status.calValid = true → (if s.mode.extended then 1728 else 1664) < s.din.len →
      exec .compensate s = .next (answered s 7#4 0#32 zeroWords))

/-- 42_compensate.md rules R190, R200 to R205, 43_track.md rule R220 (decisions D19, D20; configuration: log 10): when
COMPENSATE completes, and everything it writes: a gated pixel takes the temperature of its own raw word, every other cell keeps
its value, and the notable pixels are those of all the cells. -/
def Obligations.CompensateCompletes : Prop :=
  ∀ s : State, s.status.calValid = true → s.din.len = (if s.mode.extended then 1728 else 1664) →
    compensateConfigWf s.cfg = true →
    ∃ (v : Cells 768 F64) (f : FrameTemps),
      f.vddRaw = asSigned 16 (readField .fr s.din (vddRawField s.cfg)) ∧
      f.ambientProxyRaw = asSigned 16 (readField .fr s.din (ambientProxyRawField s.cfg)) ∧
      f.vBe = asSigned 16 (readField .fr s.din (vBeField s.cfg)) ∧
      f.gainRam = asSigned 16 (readField .fr s.din (gainRamField s.cfg)) ∧
      (∀ i : Pixel, v.get i =
        if s.mode.extended = false ∨ (i.val / 32 + i.val % 32) % 2 = (s.din.word 832).toNat % 2 then
          pixelTo s.cfg.numerics s.cal (frameScalars s.cfg.numerics s.cal f)
            (asSigned 16 (readField .fr s.din (rawPixelField s.cfg i))) i
        else s.tObj.get i) ∧
      exec .compensate s = .next
        { answered
            { s with status := { s.status with eAor := s.status.eAor || (compensateAddrs s.cfg).any outOfRange } }
            0#4 0#32 zeroWords with
          tObj := v
          np := track s.cfg.numerics v }

/-- 42_compensate.md rule R201: the gate, by row and column; each subpage value admits exactly 384 pixels, a plain frame all 768,
and the two subpages share none. -/
def Obligations.GateAdmitsHalfTheFrame : Prop :=
  (∀ (extended : Bool) (subpage : Nat) (i : Pixel),
    gate extended subpage i = true ↔ extended = false ∨ (i.val / 32 + i.val % 32) % 2 = subpage) ∧
  ((List.finRange 768).filter (gate true 0)).length = 384 ∧ ((List.finRange 768).filter (gate true 1)).length = 384 ∧
  (∀ (b : Nat) (i : Pixel), gate false b i = true) ∧
  (∀ i : Pixel, gate true 0 i = !gate true 1 i)

/-- 42_compensate.md rules R194 to R198 (decision D15): the per-frame scalars, one operation of `NUMERICS` per operator. -/
def Obligations.FrameScalarFormulas : Prop :=
  ∀ (N : Numerics) (cal : Cal) (f : FrameTemps),
    let k := frameScalars N cal f
    let n : Int := -((cal.vdd25.toNat : Int) * 32) + f.vddRaw + 16384
    let art := N.div (F64.lit 262144 1) (N.add cal.aPtat (N.div (N.ofInt f.vBe) (N.ofInt f.ambientProxyRaw)))
    k.dV = N.div (N.div (N.ofInt n) (N.ofInt cal.kVdd.toInt)) (F64.lit 32 1) ∧
    k.dTa = N.div (N.sub (N.div art (N.add (F64.lit 1 1) (N.mul cal.kVPtat k.dV)))
      (N.ofInt cal.vPtat25.toInt)) cal.kTPtat ∧
    k.gain = N.div (N.ofInt cal.gainEe.toInt) (N.ofInt f.gainRam) ∧
    k.tAr = N.pow (N.add k.dTa (F64.lit 29815 100)) (F64.lit 4 1)

/-- 42_compensate.md rule R203: `pix`, one operation of `NUMERICS` per operator as the rule groups it; under the default, with `dV` and
`dTa` zero and finite coefficients the two correction factors are exactly 1, so `pix` is `F(raw)*gain - F(offset_ref)`. -/
def Obligations.PixelFormula : Prop :=
  ∀ (cal : Cal) (k : FrameScalars) (raw : Int) (i : Pixel),
    (∀ N : Numerics,
      let q := if i.val / 32 % 2 = 0 then (if i.val % 32 % 2 = 0 then cal.kV.at00 else cal.kV.at01)
        else (if i.val % 32 % 2 = 0 then cal.kV.at10 else cal.kV.at11)
      let t1 := N.add (F64.lit 1 1) (N.mul (cal.kTa.get i) k.dTa)
      let t2 := N.add (F64.lit 1 1) (N.mul q k.dV)
      pixelPix N cal k raw i = N.sub (N.mul (N.ofInt raw) k.gain)
        (N.mul (N.mul (N.ofInt (cal.offsetRef.get i).toInt) t1) t2)) ∧
    (F64.isZero k.dV = true → F64.isZero k.dTa = true → F64.isFinite (cal.kTa.get i) = true →
      (∀ pr pc : Fin 2, F64.isFinite (cal.kV.get pr pc) = true) →
      pixelT1 .binary64 cal k i = F64.lit 1 1 ∧ pixelT2 .binary64 cal k i = F64.lit 1 1 ∧
      pixelPix .binary64 cal k raw i =
        F64.sub (F64.mul (F64.ofInt raw) k.gain) (F64.ofInt (cal.offsetRef.get i).toInt))

/-- 42_compensate.md rule R204: `To`, one operation of `NUMERICS` per operator as the rule groups it; under the default a zero `a_ref`
gives an infinite or NaN quotient, a negative radicand, minus infinity among them, a NaN, and a NaN upstream a NaN. -/
def Obligations.ObjectTemperatureFormula : Prop :=
  ∀ (cal : Cal) (k : FrameScalars) (raw : Int) (i : Pixel),
    (∀ N : Numerics,
      pixelTo N cal k raw i =
        N.sub (N.pow (N.add (N.div (pixelPix N cal k raw i) (cal.aRef.get i)) k.tAr) (F64.lit 1 4)) (F64.lit 27315 100)) ∧
    (let quotient := F64.div (pixelPix .binary64 cal k raw i) (cal.aRef.get i)
    let radicand := F64.add quotient k.tAr
    (F64.isZero (cal.aRef.get i) = true → F64.isInf quotient = true ∨ F64.isNaN quotient = true) ∧
    (F64.isNaN radicand = false → F64.neg radicand = true → F64.isZero radicand = false →
      F64.isNaN (pixelTo .binary64 cal k raw i) = true) ∧
    (F64.isNaN (pixelPix .binary64 cal k raw i) = true ∨ F64.isNaN (cal.aRef.get i) = true ∨ F64.isNaN k.tAr = true →
      F64.isNaN (pixelTo .binary64 cal k raw i) = true))

/-- 30_encoding.md rule R99, 42_compensate.md rules R200, R201: the words that no field names have no effect, in an extended frame
neither have bits 15 to 1 of the status word, the words 833 to 863 and the pixels that do not pass the gate. -/
def Obligations.CompensateDependsOnItsWordsOnly : Prop :=
  ∀ (s : State) (m m' : Memory), m.len = m'.len →
    (s.mode.extended = true → (m.word 832).toNat % 2 = (m'.word 832).toNat % 2) →
    (∀ a ∈ compensateAddrs s.cfg, memRead .fr m a = memRead .fr m' a) →
    (∀ i : Pixel, gate s.mode.extended ((m.word 832).toNat % 2) i = true → m.word i = m'.word i) →
    exec .compensate { s with din := m } = exec .compensate { s with din := m' }

/-- 42_compensate.md rules R190, R192, R200 to R202 with the default sub-fields (log 6): what COMPENSATE reads is what the record words of its frame, run one
after another, leave in the temporaries. -/
def Obligations.CompensateIsItsRecordWords : Prop :=
  ∀ s : State, s.status.calValid = true → s.din.len = (if s.mode.extended then 1728 else 1664) →
    compensateConfigWf s.cfg = true → s.cfg.frm = defaultFrameTable →
    ∃ t u, runRecords s.din (frameRows s.mode.extended s.din) s = .next t ∧ exec .compensate s = .next u ∧
      u.tObj = refresh s.cfg.numerics s.mode.extended s.cal t.work.frm
        (frameScalars s.cfg.numerics s.cal t.work.frm) s.tObj ∧
      t = { s with work := { s.work with frm := t.work.frm } }

/-! ### TRACK -/

/-- 43_track.md rules R220 to R222, R225 (decisions D30, D32) under the default `NUMERICS`, for cells of which cell 0 is no NaN: the
reported minimum and maximum are no NaN, extreme among the cells that are none, infinities included, and the first such
pixel in row-major order. -/
def Obligations.TrackFindsFirstExtremes : Prop :=
  ∀ v : Cells 768 F64, F64.isNaN (v.get 0) = false →
    ∃ lo hi : Pixel,
      F64.isNaN (v.get lo) = false ∧ F64.isNaN (v.get hi) = false ∧
      (∀ i, F64.lt (v.get i) (v.get lo) = false) ∧
      (∀ i, i < lo → F64.isNaN (v.get i) = false → F64.lt (v.get lo) (v.get i) = true) ∧
      (∀ i, F64.lt (v.get hi) (v.get i) = false) ∧
      (∀ i, i < hi → F64.isNaN (v.get i) = false → F64.lt (v.get i) (v.get hi) = true) ∧
      (track .binary64 v).min = ⟨BitVec.ofNat 8 (lo.val % 32), BitVec.ofNat 8 (lo.val / 32), v.get lo⟩ ∧
      (track .binary64 v).max = ⟨BitVec.ofNat 8 (hi.val % 32), BitVec.ofNat 8 (hi.val / 32), v.get hi⟩

/-- 43_track.md rules R223, R224: the centre is pixel (col 16, row 12), cell 400; every record is that of one pixel, x its column, y its
row, its temperature bit for bit. -/
def Obligations.TrackReportsCentreAndCoordinates : Prop :=
  ∀ (N : Numerics) (v : Cells 768 F64),
    (track N v).center = ⟨16#8, 12#8, v.get 400⟩ ∧
    (∃ i : Pixel, (track N v).min.x.toNat = i.val % 32 ∧ (track N v).min.y.toNat = i.val / 32 ∧
      (track N v).min.temperature = v.get i) ∧
    (∃ i : Pixel, (track N v).max.x.toNat = i.val % 32 ∧ (track N v).max.y.toNat = i.val / 32 ∧
      (track N v).max.temperature = v.get i)

/-- 43_track.md rules R225, R226 (decisions D30, D32) under the default `NUMERICS`: all cells equal report pixel 0 as both; a NaN in
cell 0 stays the candidate; a NaN in another cell is never reported unless cell 0 is a NaN. -/
def Obligations.TrackSpecialFrames : Prop :=
  ∀ v : Cells 768 F64,
    ((∀ i, v.get i = v.get 0) →
      (track .binary64 v).min = ⟨0#8, 0#8, v.get 0⟩ ∧ (track .binary64 v).max = ⟨0#8, 0#8, v.get 0⟩) ∧
    (F64.isNaN (v.get 0) = true →
      (track .binary64 v).min = ⟨0#8, 0#8, v.get 0⟩ ∧ (track .binary64 v).max = ⟨0#8, 0#8, v.get 0⟩) ∧
    (F64.isNaN (v.get 0) = false →
      F64.isNaN (track .binary64 v).min.temperature = false ∧ F64.isNaN (track .binary64 v).max.temperature = false)

/-! ### The whole machine -/

/-- Every step keeps the invariant of the state between operations (`State.Inv`, Safety.lean). -/
def Obligations.StepKeepsInvariant : Prop := ∀ s t : State, s.Inv → step s = .next t → t.Inv

/-- The machine after reset meets the invariant. -/
def Obligations.ResetMeetsInvariant : Prop := State.reset.Inv

/-- 10_state.md rule R32, 60_exceptions.md rule R256 (decision D25): a committed calibration is changed by nothing but reset. -/
def Obligations.CalibrationIsLocked : Prop :=
  ∀ s t : State, s.status.calValid = true → s.resetPending = false → step s = .next t →
    t.cal = s.cal ∧ t.status.calValid = true

/-- 70_reset_and_hazards.md rule R280, 10_state.md rules R23, R38 (decisions D21, D22, D28, D29): nothing but reset clears a
sticky flag or samples the strap, and nothing writes the configuration. -/
def Obligations.OnlyResetClears : Prop :=
  ∀ s t : State, step s = .next t →
    t.cfg = s.cfg ∧
    (s.resetPending = false →
      t.mode = s.mode ∧ (s.status.calValid = true → t.status.calValid = true) ∧
      (s.status.wTgc = true → t.status.wTgc = true) ∧ (s.status.eAor = true → t.status.eAor = true))

/-- 10_state.md rules R32 to R34: of all instructions only COMPENSATE writes `TO` and `NP`, and only DECODE writes `CAL`,
`cal_valid` and `W_TGC`. -/
def Obligations.WritersOfResults : Prop :=
  ∀ (i : Instr) (s t : State), exec i s = .next t →
    (i ≠ .compensate → t.tObj = s.tObj ∧ t.np = s.np) ∧
    (i ≠ .decode true → i ≠ .decode false →
      t.cal = s.cal ∧ t.status.calValid = s.status.calValid ∧ t.status.wTgc = s.status.wTgc)

/-- 60_exceptions.md rules R259, R265 (decision D24): a command answered with an error changes `LAST_ERR` and nothing else. -/
def Obligations.ErrorsChangeLastErrOnly : Prop :=
  ∀ (i : Instr) (s t : State) (r : Response), isCommand i = true → exec i s = .next t → t.resp = some r →
    r.code ≠ 0#4 → t = answered s r.code 0#32 r.diag

/-- 93_implementation_defined.md U16, 60_exceptions.md rule R262 (log 10): with a well-formed configuration every step answers;
DECODE and COMPENSATE that passed their tests under an ill-formed one are refused. -/
def Obligations.StepAnswersUnlessConfigIllFormed : Prop :=
  (∀ s : State, configWf s.cfg = true → ∃ t, step s = .next t) ∧
  (∀ (skip : Bool) (s : State), s.status.calValid = false → s.din.len = 1664 → decodeConfigWf s.cfg = false →
    exec (.decode skip) s = .refused .illFormedConfig) ∧
  (∀ s : State, s.status.calValid = true → s.din.len = (if s.mode.extended then 1728 else 1664) →
    compensateConfigWf s.cfg = false → exec .compensate s = .refused .illFormedConfig)

/-- 20_memory.md rule R58, 60_exceptions.md rule R254 (decision D21): an address outside both ranges reads 0, and with the default
table none of an operation's addresses is outside. -/
def Obligations.AccessorRanges : Prop :=
  (∀ (sp : Space) (m : Memory) (a : Nat), outOfRange a = true → memRead sp m a = 0#16) ∧
  (∀ a : Nat, outOfRange a = true ↔ ¬ (0x2400 ≤ a ∧ a ≤ 0x273F) ∧ ¬ (0x0400 ≤ a ∧ a ≤ 0x073F)) ∧
  (∀ c : Config, hasDefaults c →
    configWf c = true ∧ (decodeAddrs c).any outOfRange = false ∧ (compensateAddrs c).any outOfRange = false)

/-- 20_memory.md rules R53, R54 (decision D6): both images are little-endian, and the byte that the identity check reads at an offset
(41_decode.md rule R143) is the byte of the string there, a low byte at an even offset, a high byte at an odd one. -/
def Obligations.WordsAreLittleEndian : Prop :=
  (∀ (bs : List Byte) (k : Nat),
    ((Memory.ofBytes bs).word k).toNat =
      (bs.getD (2 * k) 0#8).toNat + 256 * (bs.getD (2 * k + 1) 0#8).toNat) ∧
  (∀ (bs : List Byte) (j : Nat), j < bs.length → (Memory.ofBytes bs).identityByte j = bs.getD j 0#8) ∧
  (∀ (m : Memory) (j : Nat), j < m.len →
    (m.identityByte j).toNat =
      if j % 2 = 0 then (m.word (j / 2)).toNat % 256 else (m.word (j / 2)).toNat / 256)

/-! ### NUMERICS -/

/-- 00_scope.md rule R11, 41_decode.md rule R177 (decision D16; log 7): the conversion of an integer below 2^53 in magnitude is exact,
and so is its division by a power of two up to 2^60. -/
def Obligations.IntegersAndScalesAreExact : Prop :=
  ∀ n : Int, n.natAbs < 2 ^ 53 →
    f64Value (F64.ofInt n) = some (n : ℚ) ∧
    ∀ k : Int, 0 ≤ k → k ≤ 60 →
      f64Value (F64.div (F64.ofInt n) (F64.pow2 k)) = some ((n : ℚ) / 2 ^ k.toNat)

/-- 42_compensate.md rule R207 (decisions D16, D32; the NaN's payload is free, log 9; pow on minus infinity: log 8): the special
results of the default `NUMERICS`. -/
def Obligations.SpecialResults : Prop :=
  ∀ x y : F64,
    ((F64.isNaN x = true ∨ F64.isNaN y = true) →
      F64.isNaN (F64.add x y) = true ∧ F64.isNaN (F64.sub x y) = true ∧ F64.isNaN (F64.mul x y) = true ∧
        F64.isNaN (F64.div x y) = true ∧ F64.isNaN (F64.pow x y) = true ∧ F64.lt x y = false) ∧
    (F64.isNaN x = false → F64.isZero x = false → F64.isZero y = true →
      F64.div x y = F64.inf (F64.neg x != F64.neg y)) ∧
    (F64.isZero x = true → F64.isZero y = true → F64.isNaN (F64.div x y) = true) ∧
    (F64.isInf x = true → F64.isZero y = true →
      F64.isNaN (F64.mul x y) = true ∧ F64.isNaN (F64.mul y x) = true) ∧
    (F64.isInf x = true → F64.isInf y = true → F64.isNaN (F64.div x y) = true) ∧
    (F64.isInf x = true → F64.isInf y = true → F64.neg x = F64.neg y →
      F64.isNaN (F64.sub x y) = true ∧ F64.add x y = F64.inf (F64.neg x)) ∧
    (F64.isInf x = true → F64.isInf y = true → F64.neg x ≠ F64.neg y →
      F64.isNaN (F64.add x y) = true ∧ F64.sub x y = F64.inf (F64.neg x)) ∧
    (F64.isInf x = true → F64.isFinite y = true →
      F64.add x y = F64.inf (F64.neg x) ∧ F64.add y x = F64.inf (F64.neg x) ∧
        F64.sub x y = F64.inf (F64.neg x) ∧ F64.sub y x = F64.inf (!F64.neg x) ∧
        F64.div x y = F64.inf (F64.neg x != F64.neg y) ∧ F64.div y x = F64.zero (F64.neg y != F64.neg x)) ∧
    (F64.isInf x = true → F64.isNaN y = false → F64.isZero y = false →
      F64.mul x y = F64.inf (F64.neg x != F64.neg y) ∧ F64.mul y x = F64.inf (F64.neg y != F64.neg x)) ∧
    (F64.isNaN x = false → F64.isZero x = false → F64.neg x = true →
      F64.isNaN (F64.pow x (F64.lit 1 4)) = true) ∧
    (F64.isInf x = true →
      F64.pow x (F64.lit 4 1) = F64.inf false ∧ (F64.neg x = false → F64.pow x (F64.lit 1 4) = F64.inf false)) ∧
    (F64.isZero x = true → F64.pow x (F64.lit 4 1) = F64.zero false ∧ F64.pow x (F64.lit 1 4) = F64.zero false)

/-- 43_track.md rule R225 (decisions D16, D32): the comparison of finite values is that of the numbers they stand for, and the two
infinities are the ordinary extreme values. -/
def Obligations.ComparisonIsNumeric : Prop :=
  (∀ (x y : F64) (a b : ℚ), f64Value x = some a → f64Value y = some b → (F64.lt x y = true ↔ a < b)) ∧
  (∀ x y : F64, F64.isInf x = true → F64.isFinite y = true →
    F64.lt x y = F64.neg x ∧ F64.lt y x = !F64.neg x) ∧
  (∀ x y : F64, F64.isInf x = true → F64.isInf y = true → (F64.lt x y = true ↔ F64.neg x = true ∧ F64.neg y = false))

/-- 00_scope.md rules R11, R12 (decision D16): sum, difference, product and quotient of finite values are the exact result rounded
once by `F64.ofRat`, and a zero where the exact result is 0. -/
def Obligations.ArithmeticRoundsExactResultOnce : Prop :=
  ∀ (x y : F64) (a b : ℚ), f64Value x = some a → f64Value y = some b →
    (a + b ≠ 0 → ∃ n d : Nat, 0 < n ∧ 0 < d ∧ |a + b| = (n : ℚ) / d ∧ F64.add x y = F64.ofRat (decide (a + b < 0)) n d) ∧
    (a - b ≠ 0 → ∃ n d : Nat, 0 < n ∧ 0 < d ∧ |a - b| = (n : ℚ) / d ∧ F64.sub x y = F64.ofRat (decide (a - b < 0)) n d) ∧
    (a * b ≠ 0 → ∃ n d : Nat, 0 < n ∧ 0 < d ∧ |a * b| = (n : ℚ) / d ∧ F64.mul x y = F64.ofRat (decide (a * b < 0)) n d) ∧
    (a / b ≠ 0 → ∃ n d : Nat, 0 < n ∧ 0 < d ∧ |a / b| = (n : ℚ) / d ∧ F64.div x y = F64.ofRat (decide (a / b < 0)) n d) ∧
    (a + b = 0 → f64Value (F64.add x y) = some 0) ∧
    (a - b = 0 → f64Value (F64.sub x y) = some 0) ∧
    (a * b = 0 → f64Value (F64.mul x y) = some 0) ∧
    (a = 0 → b ≠ 0 → f64Value (F64.div x y) = some 0)

/-- 92_eei_decisions.md D16: the rounding of `n / d` is to the nearest binary64, ties to even. At the scale `2^e` that holds `n / d`
with 53 significant bits, or at the subnormal scale, the result is the nearest integer multiple, the even one of two equally
near; from half a unit above the greatest finite value on it is an infinity. -/
def Obligations.RoundsToNearestEven : Prop :=
  (∀ n d : Nat, 0 < d →
    2 * |(F64.roundHalfEven n d * d : Int) - n| ≤ d ∧
    (2 * |(F64.roundHalfEven n d * d : Int) - n| = d → F64.roundHalfEven n d % 2 = 0)) ∧
  ∀ (neg : Bool) (n d : Nat), 0 < n → 0 < d →
    (F64.isFinite (F64.ofRat neg n d) = true →
      ∃ (k : Nat) (e : ℤ),
        -1074 ≤ e ∧ k ≤ 2 ^ 53 ∧ (e = -1074 ∨ (2 : ℚ) ^ 52 * 2 ^ e ≤ (n : ℚ) / d) ∧ (n : ℚ) / d < 2 ^ 53 * 2 ^ e ∧
        f64Value (F64.ofRat neg n d) = some ((if neg then -1 else 1) * (k : ℚ) * 2 ^ e) ∧
        2 * |(n : ℚ) / d - k * 2 ^ e| ≤ 2 ^ e ∧
        (2 * |(n : ℚ) / d - k * 2 ^ e| = 2 ^ e → k % 2 = 0)) ∧
    (F64.isFinite (F64.ofRat neg n d) = false ↔ (2 : ℚ) ^ 1024 - 2 ^ 970 ≤ (n : ℚ) / d) ∧
    (F64.isFinite (F64.ofRat neg n d) = false → F64.ofRat neg n d = F64.inf neg)

/-! ### The fields of a frame -/

/-- 42_compensate.md rules R192, R193, R202 with the default field table (decisions D17, D18): the four header fields and the 768
raw pixels are the frame's words, signed, and an `s16` holds each. -/
def Obligations.CompensateReadsFrameFields : Prop :=
  ∀ (c : Config) (m : Memory), hasDefaults c →
    asSigned 16 (readField .fr m (vddRawField c)) = fieldInt (frWord m 0x072A) 0 16 true ∧
    asSigned 16 (readField .fr m (ambientProxyRawField c)) = fieldInt (frWord m 0x0720) 0 16 true ∧
    asSigned 16 (readField .fr m (vBeField c)) = fieldInt (frWord m 0x0700) 0 16 true ∧
    asSigned 16 (readField .fr m (gainRamField c)) = fieldInt (frWord m 0x070A) 0 16 true ∧
    ∀ i : Pixel, asSigned 16 (readField .fr m (rawPixelField c i)) = fieldInt (frWord m (0x0400 + i)) 0 16 true
end

