-- ==== Sys2Proof/Laws/Cells.lean ====
section
/-! SUPPORT. The small lemmas of the containers of Word.lean. -/

namespace Sys2Proof

@[simp] theorem Cells.get_ofFn {n : Nat} {α : Type} (f : Fin n → α) (i : Fin n) : (Cells.ofFn f).get i = f i := by
  simp only [Cells.get, Cells.ofFn, List.get_ofFn]
  rfl

@[simp] theorem Cells.get_put {n : Nat} {α : Type} (c : Cells n α) (i j : Fin n) (v : α) :
    (c.put i v).get j = if j = i then v else c.get j := by
  simp [Cells.put]

theorem Cells.ext_get {n : Nat} {α : Type} {c d : Cells n α} (h : ∀ i, c.get i = d.get i) : c = d := by
  obtain ⟨l, hl⟩ := c
  obtain ⟨m, hm⟩ := d
  have : l = m := by
    refine List.ext_getElem (hl.trans hm.symm) fun k h1 h2 => ?_
    simpa [Cells.get] using h ⟨k, hl ▸ h1⟩
  subst this
  rfl

theorem Cells.ofFn_get {n : Nat} {α : Type} (c : Cells n α) : Cells.ofFn c.get = c :=
  Cells.ext_get fun i => Cells.get_ofFn _ i

theorem Quad.get_set {α : Type} (q : Quad α) (pr pc pr' pc' : Fin 2) (v : α) :
    (q.set pr pc v).get pr' pc' = if pr' = pr ∧ pc' = pc then v else q.get pr' pc' := by
  fin_cases pr <;> fin_cases pc <;> fin_cases pr' <;> fin_cases pc' <;> rfl

end Sys2Proof
end

