-- ==== Sys2Proof/Laws/State.lean ====
section
/-! SUPPORT. One lemma per field of State per update, true by rfl, so that no proof unfolds a record update. -/

namespace Sys2Proof.Machine

variable (s : State)

/-! ### `State.respond` -/

@[simp] theorem State.respond_cfg (code : ErrCode) (value : I32) (diag : Cells 16 Word) :
    (s.respond code value diag).cfg =
      s.cfg :=
  rfl
@[simp] theorem State.respond_mode (code : ErrCode) (value : I32) (diag : Cells 16 Word) :
    (s.respond code value diag).mode =
      s.mode :=
  rfl
@[simp] theorem State.respond_status (code : ErrCode) (value : I32) (diag : Cells 16 Word) :
    (s.respond code value diag).status =
      { s.status with lastErr := code.bits } :=
  rfl
@[simp] theorem State.respond_cal (code : ErrCode) (value : I32) (diag : Cells 16 Word) :
    (s.respond code value diag).cal =
      s.cal :=
  rfl
@[simp] theorem State.respond_tObj (code : ErrCode) (value : I32) (diag : Cells 16 Word) :
    (s.respond code value diag).tObj =
      s.tObj :=
  rfl
@[simp] theorem State.respond_np (code : ErrCode) (value : I32) (diag : Cells 16 Word) :
    (s.respond code value diag).np =
      s.np :=
  rfl
@[simp] theorem State.respond_din (code : ErrCode) (value : I32) (diag : Cells 16 Word) :
    (s.respond code value diag).din =
      Memory.empty :=
  rfl
@[simp] theorem State.respond_resp (code : ErrCode) (value : I32) (diag : Cells 16 Word) :
    (s.respond code value diag).resp =
      some ⟨code.bits, value, diag, { s.status with lastErr := code.bits }, s.mode⟩ :=
  rfl
@[simp] theorem State.respond_work (code : ErrCode) (value : I32) (diag : Cells 16 Word) :
    (s.respond code value diag).work =
      s.work :=
  rfl
@[simp] theorem State.respond_inbox (code : ErrCode) (value : I32) (diag : Cells 16 Word) :
    (s.respond code value diag).inbox =
      s.inbox :=
  rfl

/-! ### `State.raise` -/

@[simp] theorem State.raise_cfg (code : ErrCode) (diag : Cells 16 Word) : (s.raise code diag).cfg = s.cfg := rfl
@[simp] theorem State.raise_mode (code : ErrCode) (diag : Cells 16 Word) : (s.raise code diag).mode = s.mode := rfl
@[simp] theorem State.raise_status (code : ErrCode) (diag : Cells 16 Word) :
    (s.raise code diag).status =
      { s.status with lastErr := code.bits } :=
  rfl
@[simp] theorem State.raise_cal (code : ErrCode) (diag : Cells 16 Word) : (s.raise code diag).cal = s.cal := rfl
@[simp] theorem State.raise_tObj (code : ErrCode) (diag : Cells 16 Word) : (s.raise code diag).tObj = s.tObj := rfl
@[simp] theorem State.raise_np (code : ErrCode) (diag : Cells 16 Word) : (s.raise code diag).np = s.np := rfl
@[simp] theorem State.raise_din (code : ErrCode) (diag : Cells 16 Word) : (s.raise code diag).din = Memory.empty := rfl
@[simp] theorem State.raise_resp (code : ErrCode) (diag : Cells 16 Word) :
    (s.raise code diag).resp =
      some ⟨code.bits, 0#32, diag, { s.status with lastErr := code.bits }, s.mode⟩ :=
  rfl
@[simp] theorem State.raise_work (code : ErrCode) (diag : Cells 16 Word) : (s.raise code diag).work = s.work := rfl
@[simp] theorem State.raise_inbox (code : ErrCode) (diag : Cells 16 Word) : (s.raise code diag).inbox = s.inbox := rfl

/-! ### `State.finish` -/

@[simp] theorem State.finish_cfg (value : I32) : (s.finish value).cfg = s.cfg := rfl
@[simp] theorem State.finish_mode (value : I32) : (s.finish value).mode = s.mode := rfl
@[simp] theorem State.finish_status (value : I32) : (s.finish value).status = { s.status with lastErr := 0#4 } := rfl
@[simp] theorem State.finish_cal (value : I32) : (s.finish value).cal = s.cal := rfl
@[simp] theorem State.finish_tObj (value : I32) : (s.finish value).tObj = s.tObj := rfl
@[simp] theorem State.finish_np (value : I32) : (s.finish value).np = s.np := rfl
@[simp] theorem State.finish_din (value : I32) : (s.finish value).din = Memory.empty := rfl
@[simp] theorem State.finish_resp (value : I32) :
    (s.finish value).resp =
      some ⟨0#4, value, noDiag, { s.status with lastErr := 0#4 }, s.mode⟩ :=
  rfl
@[simp] theorem State.finish_work (value : I32) : (s.finish value).work = s.work := rfl
@[simp] theorem State.finish_inbox (value : I32) : (s.finish value).inbox = s.inbox := rfl

/-! ### `State.rejectCommand` -/

@[simp] theorem State.rejectCommand_cfg : (s.rejectCommand).cfg = s.cfg := rfl
@[simp] theorem State.rejectCommand_mode : (s.rejectCommand).mode = s.mode := rfl
@[simp] theorem State.rejectCommand_status : (s.rejectCommand).status = { s.status with lastErr := 6#4 } := rfl
@[simp] theorem State.rejectCommand_cal : (s.rejectCommand).cal = s.cal := rfl
@[simp] theorem State.rejectCommand_tObj : (s.rejectCommand).tObj = s.tObj := rfl
@[simp] theorem State.rejectCommand_np : (s.rejectCommand).np = s.np := rfl
@[simp] theorem State.rejectCommand_din : (s.rejectCommand).din = Memory.empty := rfl
@[simp] theorem State.rejectCommand_resp :
    (s.rejectCommand).resp =
      some ⟨6#4, 0#32, noDiag, { s.status with lastErr := 6#4 }, s.mode⟩ :=
  rfl
@[simp] theorem State.rejectCommand_work : (s.rejectCommand).work = s.work := rfl
@[simp] theorem State.rejectCommand_inbox : (s.rejectCommand).inbox = s.inbox := rfl

/-! ### `State.accept` -/

@[simp] theorem State.accept_cfg (m : Memory) (rest : List Request) : (s.accept m rest).cfg = s.cfg := rfl
@[simp] theorem State.accept_mode (m : Memory) (rest : List Request) : (s.accept m rest).mode = s.mode := rfl
@[simp] theorem State.accept_status (m : Memory) (rest : List Request) : (s.accept m rest).status = s.status := rfl
@[simp] theorem State.accept_cal (m : Memory) (rest : List Request) : (s.accept m rest).cal = s.cal := rfl
@[simp] theorem State.accept_tObj (m : Memory) (rest : List Request) : (s.accept m rest).tObj = s.tObj := rfl
@[simp] theorem State.accept_np (m : Memory) (rest : List Request) : (s.accept m rest).np = s.np := rfl
@[simp] theorem State.accept_din (m : Memory) (rest : List Request) : (s.accept m rest).din = m := rfl
@[simp] theorem State.accept_resp (m : Memory) (rest : List Request) : (s.accept m rest).resp = s.resp := rfl
@[simp] theorem State.accept_work (m : Memory) (rest : List Request) : (s.accept m rest).work = s.work := rfl
@[simp] theorem State.accept_inbox (m : Memory) (rest : List Request) : (s.accept m rest).inbox = rest := rfl

/-! ### `State.issueFirst` -/

@[simp] theorem State.issueFirst_cfg (r : Request) : (s.issueFirst r).cfg = s.cfg := rfl
@[simp] theorem State.issueFirst_mode (r : Request) : (s.issueFirst r).mode = s.mode := rfl
@[simp] theorem State.issueFirst_status (r : Request) : (s.issueFirst r).status = s.status := rfl
@[simp] theorem State.issueFirst_cal (r : Request) : (s.issueFirst r).cal = s.cal := rfl
@[simp] theorem State.issueFirst_tObj (r : Request) : (s.issueFirst r).tObj = s.tObj := rfl
@[simp] theorem State.issueFirst_np (r : Request) : (s.issueFirst r).np = s.np := rfl
@[simp] theorem State.issueFirst_din (r : Request) : (s.issueFirst r).din = s.din := rfl
@[simp] theorem State.issueFirst_resp (r : Request) : (s.issueFirst r).resp = s.resp := rfl
@[simp] theorem State.issueFirst_work (r : Request) : (s.issueFirst r).work = s.work := rfl
@[simp] theorem State.issueFirst_inbox (r : Request) : (s.issueFirst r).inbox = r :: s.inbox := rfl

/-! ### `State.applyReset` -/

@[simp] theorem State.applyReset_cfg (draw : ResetDraw) (rest : List Request) :
    (s.applyReset draw rest).cfg =
      s.cfg :=
  rfl
@[simp] theorem State.applyReset_mode (draw : ResetDraw) (rest : List Request) :
    (s.applyReset draw rest).mode =
      ⟨s.cfg.extended⟩ :=
  rfl
@[simp] theorem State.applyReset_status (draw : ResetDraw) (rest : List Request) :
    (s.applyReset draw rest).status =
      ⟨false, false, false, 0#4⟩ :=
  rfl
@[simp] theorem State.applyReset_cal (draw : ResetDraw) (rest : List Request) :
    (s.applyReset draw rest).cal =
      draw.cal :=
  rfl
@[simp] theorem State.applyReset_tObj (draw : ResetDraw) (rest : List Request) :
    (s.applyReset draw rest).tObj =
      draw.tObj :=
  rfl
@[simp] theorem State.applyReset_np (draw : ResetDraw) (rest : List Request) :
    (s.applyReset draw rest).np =
      draw.np :=
  rfl
@[simp] theorem State.applyReset_din (draw : ResetDraw) (rest : List Request) :
    (s.applyReset draw rest).din =
      Memory.empty :=
  rfl
@[simp] theorem State.applyReset_resp (draw : ResetDraw) (rest : List Request) :
    (s.applyReset draw rest).resp =
      none :=
  rfl
@[simp] theorem State.applyReset_work (draw : ResetDraw) (rest : List Request) :
    (s.applyReset draw rest).work =
      draw.work :=
  rfl
@[simp] theorem State.applyReset_inbox (draw : ResetDraw) (rest : List Request) :
    (s.applyReset draw rest).inbox =
      rest :=
  rfl

/-! ### `State.onDec` -/

@[simp] theorem State.onDec_cfg (f : DecodeTemps → DecodeTemps) : (s.onDec f).cfg = s.cfg := rfl
@[simp] theorem State.onDec_mode (f : DecodeTemps → DecodeTemps) : (s.onDec f).mode = s.mode := rfl
@[simp] theorem State.onDec_status (f : DecodeTemps → DecodeTemps) : (s.onDec f).status = s.status := rfl
@[simp] theorem State.onDec_cal (f : DecodeTemps → DecodeTemps) : (s.onDec f).cal = s.cal := rfl
@[simp] theorem State.onDec_tObj (f : DecodeTemps → DecodeTemps) : (s.onDec f).tObj = s.tObj := rfl
@[simp] theorem State.onDec_np (f : DecodeTemps → DecodeTemps) : (s.onDec f).np = s.np := rfl
@[simp] theorem State.onDec_din (f : DecodeTemps → DecodeTemps) : (s.onDec f).din = s.din := rfl
@[simp] theorem State.onDec_resp (f : DecodeTemps → DecodeTemps) : (s.onDec f).resp = s.resp := rfl
@[simp] theorem State.onDec_work (f : DecodeTemps → DecodeTemps) :
    (s.onDec f).work =
      { s.work with dec := f s.work.dec } :=
  rfl
@[simp] theorem State.onDec_inbox (f : DecodeTemps → DecodeTemps) : (s.onDec f).inbox = s.inbox := rfl

/-! ### `State.onFrm` -/

@[simp] theorem State.onFrm_cfg (f : FrameTemps → FrameTemps) : (s.onFrm f).cfg = s.cfg := rfl
@[simp] theorem State.onFrm_mode (f : FrameTemps → FrameTemps) : (s.onFrm f).mode = s.mode := rfl
@[simp] theorem State.onFrm_status (f : FrameTemps → FrameTemps) : (s.onFrm f).status = s.status := rfl
@[simp] theorem State.onFrm_cal (f : FrameTemps → FrameTemps) : (s.onFrm f).cal = s.cal := rfl
@[simp] theorem State.onFrm_tObj (f : FrameTemps → FrameTemps) : (s.onFrm f).tObj = s.tObj := rfl
@[simp] theorem State.onFrm_np (f : FrameTemps → FrameTemps) : (s.onFrm f).np = s.np := rfl
@[simp] theorem State.onFrm_din (f : FrameTemps → FrameTemps) : (s.onFrm f).din = s.din := rfl
@[simp] theorem State.onFrm_resp (f : FrameTemps → FrameTemps) : (s.onFrm f).resp = s.resp := rfl
@[simp] theorem State.onFrm_work (f : FrameTemps → FrameTemps) :
    (s.onFrm f).work =
      { s.work with frm := f s.work.frm } :=
  rfl
@[simp] theorem State.onFrm_inbox (f : FrameTemps → FrameTemps) : (s.onFrm f).inbox = s.inbox := rfl

/-! ### `State.commitCal` -/

@[simp] theorem State.commitCal_cfg (t : DecodeTemps) : (s.commitCal t).cfg = s.cfg := rfl
@[simp] theorem State.commitCal_mode (t : DecodeTemps) : (s.commitCal t).mode = s.mode := rfl
@[simp] theorem State.commitCal_status (t : DecodeTemps) :
    (s.commitCal t).status =
      { s.status with calValid := true, wTgc := s.status.wTgc || tgcPresent t.tgc, eAor := s.status.eAor || decodeOutOfRange s.cfg } :=
  rfl
@[simp] theorem State.commitCal_cal (t : DecodeTemps) : (s.commitCal t).cal = reconstruct s.cfg.numerics t := rfl
@[simp] theorem State.commitCal_tObj (t : DecodeTemps) : (s.commitCal t).tObj = s.tObj := rfl
@[simp] theorem State.commitCal_np (t : DecodeTemps) : (s.commitCal t).np = s.np := rfl
@[simp] theorem State.commitCal_din (t : DecodeTemps) : (s.commitCal t).din = s.din := rfl
@[simp] theorem State.commitCal_resp (t : DecodeTemps) : (s.commitCal t).resp = s.resp := rfl
@[simp] theorem State.commitCal_work (t : DecodeTemps) : (s.commitCal t).work = s.work := rfl
@[simp] theorem State.commitCal_inbox (t : DecodeTemps) : (s.commitCal t).inbox = s.inbox := rfl

/-! ### `State.commitFrame` -/

@[simp] theorem State.commitFrame_cfg : (s.commitFrame).cfg = s.cfg := rfl
@[simp] theorem State.commitFrame_mode : (s.commitFrame).mode = s.mode := rfl
@[simp] theorem State.commitFrame_status :
    (s.commitFrame).status =
      { s.status with eAor := s.status.eAor || compensateOutOfRange s.cfg } :=
  rfl
@[simp] theorem State.commitFrame_cal : (s.commitFrame).cal = s.cal := rfl
@[simp] theorem State.commitFrame_tObj : (s.commitFrame).tObj = s.nextTemps := rfl
@[simp] theorem State.commitFrame_np : (s.commitFrame).np = track s.cfg.numerics s.nextTemps := rfl
@[simp] theorem State.commitFrame_din : (s.commitFrame).din = s.din := rfl
@[simp] theorem State.commitFrame_resp : (s.commitFrame).resp = s.resp := rfl
@[simp] theorem State.commitFrame_work : (s.commitFrame).work = s.work := rfl
@[simp] theorem State.commitFrame_inbox : (s.commitFrame).inbox = s.inbox := rfl

/-! ### `State.runDecode` -/

@[simp] theorem State.runDecode_cfg : (s.runDecode).cfg = s.cfg := rfl
@[simp] theorem State.runDecode_mode : (s.runDecode).mode = s.mode := rfl
@[simp] theorem State.runDecode_status :
    (s.runDecode).status =
      ⟨true, s.status.wTgc || tgcPresent (decodeImage s.cfg s.din s.work.dec).tgc, s.status.eAor || decodeOutOfRange s.cfg, 0#4⟩ :=
  rfl
@[simp] theorem State.runDecode_cal : (s.runDecode).cal = reconstruct s.cfg.numerics (decodeImage s.cfg s.din s.work.dec) := rfl
@[simp] theorem State.runDecode_tObj : (s.runDecode).tObj = s.tObj := rfl
@[simp] theorem State.runDecode_np : (s.runDecode).np = s.np := rfl
@[simp] theorem State.runDecode_din : (s.runDecode).din = Memory.empty := rfl
@[simp] theorem State.runDecode_resp :
    (s.runDecode).resp =
      some ⟨0#4, 0#32, noDiag, ⟨true, s.status.wTgc || tgcPresent (decodeImage s.cfg s.din s.work.dec).tgc, s.status.eAor || decodeOutOfRange s.cfg, 0#4⟩, s.mode⟩ :=
  rfl
@[simp] theorem State.runDecode_work : (s.runDecode).work = s.work := rfl
@[simp] theorem State.runDecode_inbox : (s.runDecode).inbox = s.inbox := rfl

/-! ### `State.runCompensate` -/

@[simp] theorem State.runCompensate_cfg : (s.runCompensate).cfg = s.cfg := rfl
@[simp] theorem State.runCompensate_mode : (s.runCompensate).mode = s.mode := rfl
@[simp] theorem State.runCompensate_status :
    (s.runCompensate).status =
      { s.status with eAor := s.status.eAor || compensateOutOfRange s.cfg, lastErr := 0#4 } :=
  rfl
@[simp] theorem State.runCompensate_cal : (s.runCompensate).cal = s.cal := rfl
@[simp] theorem State.runCompensate_tObj : (s.runCompensate).tObj = s.nextTemps := rfl
@[simp] theorem State.runCompensate_np : (s.runCompensate).np = track s.cfg.numerics s.nextTemps := rfl
@[simp] theorem State.runCompensate_din : (s.runCompensate).din = Memory.empty := rfl
@[simp] theorem State.runCompensate_resp :
    (s.runCompensate).resp =
      some ⟨0#4, 0#32, noDiag, { s.status with eAor := s.status.eAor || compensateOutOfRange s.cfg, lastErr := 0#4 }, s.mode⟩ :=
  rfl
@[simp] theorem State.runCompensate_work : (s.runCompensate).work = s.work := rfl
@[simp] theorem State.runCompensate_inbox : (s.runCompensate).inbox = s.inbox := rfl

end Sys2Proof.Machine
end

