-- ==== Sys2Proof/Laws/Exec.lean ====
section
/-! SUPPORT. What each shared operation, each instruction and a step can do, said once. -/

namespace Sys2Proof.Machine

/-- An EXTRACT command either finishes with the field or raises `IllegalOperand`. -/
theorem extractCommand_cases (signed : Bool) (width start : Nat) (word : Word) (s : State) :
    (legalSlice start width = true ∧
        extractCommand signed width start word s = s.finish (extractBits word start width signed)) ∨
      (legalSlice start width = false ∧ extractCommand signed width start word s = s.raise .illegalOperand noDiag) := by
  unfold extractCommand
  cases legalSlice start width <;> simp

/-- DECODE either raises the first failing test, or is refused, or commits. -/
theorem execDecode_cases (skip : Bool) (s : State) :
    (∃ e, decodeError skip s = some e ∧ (decodeEarlyError s = some e ∨ decodeConfigWf s.cfg = true) ∧
        execDecode skip s = .next (s.raise e (decodeDiag s e))) ∨
      (decodeEarlyError s = none ∧ decodeConfigWf s.cfg = false ∧ execDecode skip s = .refused .illFormedConfig) ∨
      (decodeError skip s = none ∧ decodeConfigWf s.cfg = true ∧ execDecode skip s = .next s.runDecode) := by
  unfold execDecode
  cases h : decodeEarlyError s with
  | some e => exact .inl ⟨e, by simp [decodeError, h], .inl rfl, rfl⟩
  | none =>
    cases hc : decodeConfigWf s.cfg with
    | false => exact .inr (.inl ⟨rfl, rfl, by simp⟩)
    | true =>
      cases he : decodeError skip s with
      | some e => exact .inl ⟨e, rfl, .inr rfl, by simp⟩
      | none => exact .inr (.inr ⟨rfl, rfl, by simp⟩)

/-- COMPENSATE either raises the first failing test, or is refused, or commits. -/
theorem execCompensate_cases (s : State) :
    (∃ e, compensateError s = some e ∧ execCompensate s = .next (s.raise e noDiag)) ∨
      (compensateError s = none ∧ compensateConfigWf s.cfg = false ∧ execCompensate s = .refused .illFormedConfig) ∨
      (compensateError s = none ∧ compensateConfigWf s.cfg = true ∧ execCompensate s = .next s.runCompensate) := by
  unfold execCompensate
  cases h : compensateError s with
  | some e => exact .inl ⟨e, rfl, rfl⟩
  | none =>
    cases hc : compensateConfigWf s.cfg with
    | false => exact .inr (.inl ⟨rfl, rfl, by simp⟩)
    | true => exact .inr (.inr ⟨rfl, rfl, by simp⟩)

/-- The next state of an instruction, by the one update it is. -/
theorem exec_next_cases {i : Instr} {s t : State} (h : exec i s = .next t) :
    (∃ v, t = s.finish v) ∨ (∃ e d, t = s.raise e d) ∨
      (∃ skip, i = .decode skip ∧ decodeError skip s = none ∧ decodeConfigWf s.cfg = true ∧ t = s.runDecode) ∨
      (i = .compensate ∧ compensateError s = none ∧ compensateConfigWf s.cfg = true ∧ t = s.runCompensate) ∨
      (∃ f, t = s.onDec f) ∨ (∃ f, t = s.onFrm f) := by
  have extract : ∀ sg w st wd, t = extractCommand sg w st wd s →
      (∃ v, t = s.finish v) ∨ (∃ e d, t = s.raise e d) := fun sg w st wd ht => by
    rcases extractCommand_cases sg w st wd s with ⟨-, h⟩ | ⟨-, h⟩
    · exact .inl ⟨_, ht.trans h⟩
    · exact .inr ⟨_, _, ht.trans h⟩
  cases i
  case extract => exact (extract _ _ _ _ (Host.Outcome.next.inj h).symm).elim Or.inl fun h => Or.inr (Or.inl h)
  case sext6 => exact (extract _ _ _ _ (Host.Outcome.next.inj h).symm).elim Or.inl fun h => Or.inr (Or.inl h)
  case nibble => exact (extract _ _ _ _ (Host.Outcome.next.inj h).symm).elim Or.inl fun h => Or.inr (Or.inl h)
  case decode skip =>
    rcases execDecode_cases skip s with ⟨e, -, -, he⟩ | ⟨-, -, he⟩ | ⟨h1, h2, he⟩
    · exact .inr (.inl ⟨e, _, Host.Outcome.next.inj (h.symm.trans he)⟩)
    · cases h.symm.trans he
    · exact .inr (.inr (.inl ⟨skip, rfl, h1, h2, Host.Outcome.next.inj (h.symm.trans he)⟩))
  case compensate =>
    rcases execCompensate_cases s with ⟨e, -, he⟩ | ⟨-, -, he⟩ | ⟨h1, h2, he⟩
    · exact .inr (.inl ⟨e, _, Host.Outcome.next.inj (h.symm.trans he)⟩)
    · cases h.symm.trans he
    · exact .inr (.inr (.inr (.inl ⟨rfl, h1, h2, Host.Outcome.next.inj (h.symm.trans he)⟩)))
  case rawPixel | ambientProxyRaw | vddRaw | vBe | gainRam | statusWord =>
    exact .inr (.inr (.inr (.inr (.inr ⟨_, (Host.Outcome.next.inj h).symm⟩))))
  all_goals exact .inr (.inr (.inr (.inr (.inl ⟨_, (Host.Outcome.next.inj h).symm⟩))))

/-- A step idles, applies a reset, rejects a command word, or runs the decoded instruction. -/
theorem step_cases (s : State) :
    (s.inbox = [] ∧ step s = .next s) ∨
      (∃ draw rest, s.inbox = .reset draw :: rest ∧ step s = .next (s.applyReset draw rest)) ∨
      (∃ cw din rest e, s.inbox = .command cw din :: rest ∧ decodeCommand cw = .error e ∧
        step s = .next (s.accept din rest).rejectCommand) ∨
      (∃ cw din rest i, s.inbox = .command cw din :: rest ∧ decodeCommand cw = .ok i ∧
        step s = exec i (s.accept din rest)) := by
  unfold step
  match h : s.inbox with
  | [] => exact .inl ⟨rfl, rfl⟩
  | .reset draw :: rest => exact .inr (.inl ⟨draw, rest, rfl, rfl⟩)
  | .command cw din :: rest =>
    cases hd : decodeCommand cw with
    | error e => exact .inr (.inr (.inl ⟨cw, din, rest, e, rfl, hd, by simp [hd]⟩))
    | ok i => exact .inr (.inr (.inr ⟨cw, din, rest, i, rfl, hd, by simp [hd]⟩))

end Sys2Proof.Machine
end

