-- ==== Sys2Proof/Laws/Memory.lean ====
section
/-! SUPPORT. Byte strings: every operation keeps the canonical form, and a read after a write. -/

namespace Sys2Proof.Machine

theorem cellsWf_mono {len lo lo' : Nat} (h : lo' ≤ lo) : ∀ {l : List Host.Cell}, cellsWf len lo l = true →
    cellsWf len lo' l = true
  | [], _ => rfl
  | (a, v) :: t, hw => by
    simp only [cellsWf, Bool.and_eq_true, decide_eq_true_eq] at hw ⊢
    exact ⟨⟨⟨h.trans hw.1.1.1, hw.1.1.2⟩, hw.1.2⟩, hw.2⟩

theorem putCell_wf {len : Nat} (j : Nat) (b : Byte) (hj : j < len) :
    ∀ {lo : Nat} {l : List Host.Cell}, lo ≤ j → cellsWf len lo l = true → cellsWf len lo (putCell l j b) = true
  | lo, [], hlo, _ => by
    unfold putCell
    split <;> rename_i hb <;> simp [cellsWf, hlo, hj, hb]
  | lo, (a, v) :: t, hlo, hw => by
    simp only [cellsWf, Bool.and_eq_true, decide_eq_true_eq, bne_iff_ne] at hw
    obtain ⟨⟨⟨h1, h2⟩, h3⟩, h4⟩ := hw
    unfold putCell
    by_cases hja : j < a
    · by_cases hb : b = 0#8
      · simp [hja, hb, cellsWf, h1, h2, h3, h4]
      · simp only [hja, hb, if_true, if_false, cellsWf, Bool.and_eq_true, decide_eq_true_eq, bne_iff_ne]
        exact ⟨⟨⟨hlo, hj⟩, hb⟩, ⟨⟨by omega, h2⟩, h3⟩, h4⟩
    · by_cases hje : j = a
      · by_cases hb : b = 0#8
        · simpa [hje, hb] using cellsWf_mono (by omega) h4
        · subst hje
          simp [hb, cellsWf, hlo, hj, h4]
      · have ih := putCell_wf j b hj (lo := a + 1) (l := t) (by omega) h4
        simp [hja, hje, cellsWf, h1, h2, h3, ih]

theorem cellsFrom_wf : ∀ (k : Nat) (bs : List Byte), cellsWf (k + bs.length) k (cellsFrom k bs) = true
  | _, [] => rfl
  | k, b :: t => by
    have ih := cellsFrom_wf (k + 1) t
    have hl : k + (b :: t).length = k + 1 + t.length := by simp; omega
    rw [hl]
    unfold cellsFrom
    split
    · exact cellsWf_mono (Nat.le_succ k) ih
    · rename_i hb
      simp only [cellsWf, Bool.and_eq_true, decide_eq_true_eq, bne_iff_ne]
      exact ⟨⟨⟨le_rfl, by omega⟩, hb⟩, ih⟩

/-- The port between operations is in the canonical form. -/
@[simp] theorem Memory.empty_wf : Memory.empty.wf = true := rfl

@[simp] theorem Memory.zeros_wf (n : Nat) : (Memory.zeros n).wf = true := rfl

theorem Memory.ofBytes_wf (bs : List Byte) : (Memory.ofBytes bs).wf = true := by
  simpa [Memory.wf, Memory.ofBytes] using cellsFrom_wf 0 bs

theorem Memory.store_wf {m : Memory} (j : Nat) (b : Byte) (h : m.wf = true) : (m.store j b).wf = true := by
  unfold Memory.store
  split
  · rename_i hj
    exact putCell_wf j b hj (Nat.zero_le j) h
  · exact h

theorem Memory.storeWord_wf {m : Memory} (k : Nat) (w : Word) (h : m.wf = true) : (m.storeWord k w).wf = true :=
  Memory.store_wf _ _ (Memory.store_wf _ _ h)

@[simp] theorem Memory.store_len (m : Memory) (j : Nat) (b : Byte) : (m.store j b).len = m.len := by
  unfold Memory.store
  split <;> rfl

theorem cellAt_below {len : Nat} : ∀ {lo j : Nat} {l : List Host.Cell}, cellsWf len lo l = true → j < lo →
    cellAt l j = 0#8
  | _, _, [], _, _ => rfl
  | lo, j, (a, v) :: t, h, hj => by
    simp only [cellsWf, Bool.and_eq_true, decide_eq_true_eq] at h
    have : a ≠ j := by omega
    simpa [cellAt, this] using cellAt_below (l := t) h.2 (by omega)

theorem cellAt_putCell {len : Nat} (j : Nat) (b : Byte) (k : Nat) :
    ∀ {lo : Nat} {l : List Host.Cell}, cellsWf len lo l = true →
      cellAt (putCell l j b) k = if k = j then b else cellAt l k
  | _, [], _ => by
    unfold putCell
    split <;> rename_i hb
    · split <;> simp [cellAt, hb]
    · simp only [cellAt]
      by_cases hk : k = j
      · simp [hk]
      · simp [hk, Ne.symm hk]
  | lo, (a, v) :: t, hw => by
    have hw' := hw
    simp only [cellsWf, Bool.and_eq_true, decide_eq_true_eq, bne_iff_ne] at hw
    obtain ⟨⟨⟨h1, h2⟩, h3⟩, h4⟩ := hw
    unfold putCell
    by_cases hja : j < a
    · have hz : cellAt ((a, v) :: t) j = 0#8 := cellAt_below (lo := a) (len := len)
        (by simp [cellsWf, h2, h3, h4]) hja
      by_cases hb : b = 0#8
      · simp only [hja, hb, if_true]
        by_cases hk : k = j <;> simp [hk, hz]
      · simp only [hja, hb, if_true, if_false]
        rw [cellAt]
        by_cases hk : j = k
        · simp [hk]
        · simp [hk, Ne.symm hk]
    · by_cases hje : j = a
      · subst hje
        by_cases hb : b = 0#8
        · simp only [lt_irrefl, hb, if_true, if_false]
          by_cases hk : k = j
          · simpa [hk] using cellAt_below h4 (Nat.lt_succ_self j)
          · simp [cellAt, hk, Ne.symm hk]
        · simp only [lt_irrefl, hb, if_true, if_false, cellAt]
          by_cases hk : j = k
          · simp [hk]
          · simp [hk, Ne.symm hk]
      · have ih := cellAt_putCell j b k h4
        simp only [hja, hje, if_false, cellAt, ih]
        by_cases hk : a = k
        · have : k ≠ j := by omega
          simp [hk, this]
        · simp [hk]

/-- A read after a write of one byte. -/
theorem Memory.byte_store {m : Memory} (h : m.wf = true) (j : Nat) (b : Byte) (hj : j < m.len) (k : Nat) :
    (m.store j b).byte k = if k = j then b else m.byte k := by
  simp only [Memory.store, hj, if_true, Memory.byte]
  exact cellAt_putCell j b k h

theorem cellAt_cellsFrom : ∀ (k : Nat) (bs : List Byte) (j : Nat), cellAt (cellsFrom k bs) (k + j) = bs.getD j 0#8
  | _, [], _ => rfl
  | k, b :: t, 0 => by
    unfold cellsFrom
    split
    · rename_i hb
      have := cellsFrom_wf (k + 1) t
      simpa [hb] using cellAt_below this (Nat.lt_succ_self k)
    · simp [cellAt]
  | k, b :: t, j + 1 => by
    have ih := cellAt_cellsFrom (k + 1) t j
    have hk : k + (j + 1) = k + 1 + j := by omega
    unfold cellsFrom
    rw [hk]
    split
    · simpa using ih
    · have : k ≠ k + 1 + j := by omega
      simpa [cellAt, this] using ih

/-- The bytes of a byte list (20_memory.md rule R53). -/
theorem Memory.byte_ofBytes (bs : List Byte) (j : Nat) : (Memory.ofBytes bs).byte j = bs.getD j 0#8 := by
  simpa [Memory.byte, Memory.ofBytes] using cellAt_cellsFrom 0 bs j

end Sys2Proof.Machine
end

