-- ==== Sys2Proof/Laws/Numerics.lean ====
section
/-! SUPPORT. The default `NUMERICS`: its operations are those of binary64, and what `pow` answers where the spec states it. -/

namespace Sys2Proof

@[simp] theorem Numerics.add_binary64 : Numerics.add .binary64 = F64.add := rfl
@[simp] theorem Numerics.sub_binary64 : Numerics.sub .binary64 = F64.sub := rfl
@[simp] theorem Numerics.mul_binary64 : Numerics.mul .binary64 = F64.mul := rfl
@[simp] theorem Numerics.div_binary64 : Numerics.div .binary64 = F64.div := rfl
@[simp] theorem Numerics.pow_binary64 : Numerics.pow .binary64 = F64.pow := rfl
@[simp] theorem Numerics.ofInt_binary64 : Numerics.ofInt .binary64 = F64.ofInt := rfl
@[simp] theorem Numerics.lt_binary64 : Numerics.lt .binary64 = F64.lt := rfl
@[simp] theorem Numerics.gt_binary64 (x y : F64) : Numerics.gt .binary64 x y = F64.lt y x := rfl

/-- An infinity is no NaN and no zero. -/
theorem F64.not_nan_of_isInf {x : F64} (h : F64.isInf x = true) : F64.isNaN x = false ∧ F64.isZero x = false := by
  unfold F64.isInf F64.expField F64.frac at h
  unfold F64.isNaN F64.isZero F64.expField F64.frac
  rw [Bool.and_eq_true, decide_eq_true_iff, decide_eq_true_iff] at h
  rw [Bool.and_eq_false_iff, decide_eq_false_iff_not, decide_eq_false_iff_not, decide_eq_false_iff_not]
  omega

/-- A finite value is no NaN and no infinity. -/
theorem F64.not_nan_of_isFinite {x : F64} (h : F64.isFinite x = true) : F64.isNaN x = false ∧ F64.isInf x = false := by
  unfold F64.isFinite at h
  unfold F64.isNaN F64.isInf
  simp_all

/-- There is one infinity of each sign. -/
theorem F64.eq_inf {x : F64} (h : F64.isInf x = true) : x = F64.inf (F64.neg x) := by
  unfold F64.isInf F64.expField F64.frac at h
  rw [Bool.and_eq_true, decide_eq_true_iff, decide_eq_true_iff] at h
  have hlt := x.isLt
  apply BitVec.eq_of_toNat_eq
  unfold F64.inf F64.pack F64.neg
  rw [BitVec.toNat_ofNat]
  by_cases hb : 2 ^ 63 ≤ x.toNat
  · rw [decide_eq_true hb, if_pos rfl]
    omega
  · rw [decide_eq_false hb, if_neg Bool.false_ne_true]
    omega

/-- A zero is no NaN and no infinity. -/
theorem F64.not_nan_of_isZero {x : F64} (h : F64.isZero x = true) : F64.isNaN x = false ∧ F64.isInf x = false := by
  unfold F64.isZero at h
  unfold F64.isNaN F64.isInf F64.expField F64.frac
  rw [decide_eq_true_iff] at h
  rw [Bool.and_eq_false_iff, Bool.and_eq_false_iff, decide_eq_false_iff_not, decide_eq_false_iff_not]
  omega

/-- The NaN an operation answers is a NaN, whatever its free bits are (log 9). -/
@[simp] theorem F64.isNaN_nan (op : NumOp) (x y : F64) : F64.isNaN (F64.nan op x y) = true := by
  unfold F64.nan
  generalize Config.nanBits op x y = b
  have he : (F64.qNaN b).extractLsb' 52 11 = 0x7FF#11 := by
    apply BitVec.eq_of_getLsbD_eq
    intro i hi
    interval_cases i <;> simp [F64.qNaN, placed]
  have hf : (F64.qNaN b).getLsbD 51 = true := by simp [F64.qNaN, placed]
  have h1 : F64.expField (F64.qNaN b) = 2047 := by
    have := congrArg BitVec.toNat he
    simpa [BitVec.extractLsb'_toNat, Nat.shiftRight_eq_div_pow, F64.expField] using this
  have h2 : F64.frac (F64.qNaN b) ≠ 0 := by
    intro h0
    rw [F64.frac] at h0
    rw [BitVec.getLsbD, Nat.testBit_eq_decide_div_mod_eq] at hf
    simp only [decide_eq_true_eq] at hf
    omega
  simp [F64.isNaN, h1, h2]
/-- What `pow` can answer: a NaN, an infinity, a zero, or the free value, each with its condition (42_compensate.md rule R207,
93_implementation_defined.md U8). -/
theorem F64.pow_cases (x y : F64) :
    ((F64.isNaN x = true ∨ F64.isNaN y = true) ∧ F64.pow x y = F64.nan .pow x y) ∨
      (y = F64.quarter ∧ F64.neg x = true ∧ F64.isZero x = false ∧ F64.pow x y = F64.nan .pow x y) ∨
      (F64.isStatedExponent y = true ∧ F64.isInf x = true ∧ F64.pow x y = F64.inf false) ∨
      (F64.isStatedExponent y = true ∧ F64.isZero x = true ∧ F64.pow x y = F64.zero false) ∨
      ((F64.isStatedExponent y = false ∨ F64.isFinite x = true) ∧ F64.pow x y = Config.freePow x y) := by
  have hfin : F64.isInf x = false → F64.isNaN x = false → F64.isFinite x = true := by
    simp only [F64.isInf, F64.isNaN, F64.isFinite]
    by_cases h : F64.expField x = 2047 <;> by_cases h' : F64.frac x = 0 <;> simp [h, h']
  unfold F64.pow
  cases hx : F64.isNaN x <;> cases hy : F64.isNaN y <;> cases hq : y == F64.quarter <;> cases hn : F64.neg x <;>
    cases hz : F64.isZero x <;> cases hs : F64.isStatedExponent y <;> cases hi : F64.isInf x <;>
    simp_all

end Sys2Proof
end

