-- ==== Sys2Proof/Laws/Operands.lean ====
section
/-! SUPPORT. What the operand forms give: a sub-field by integer division, the word behind an address. -/

namespace Sys2Proof.Machine

/-! ### Responses -/

theorem finish_eq_answered (s : State) (v : I32) : s.finish v = answered s 0#4 v zeroWords := rfl

theorem raise_eq_answered (s : State) (e : ErrCode) (d : Cells 16 Word) : s.raise e d = answered s e.bits 0#32 d := rfl

/-! ### Stores into typed cells -/

/-- A value in range is stored as it is (00_scope.md rule R10). -/
theorem storeSigned_toInt {w : Nat} (hw : 0 < w) {v : Int} (h1 : -2 ^ (w - 1) ≤ v) (h2 : v < 2 ^ (w - 1)) :
    (storeSigned w v).toInt = v := by
  rw [storeSigned, if_pos ⟨h1, h2⟩, BitVec.toInt_ofInt_eq_self hw h1 h2]

theorem asSigned_of_mem {w : Nat} (hw : 0 < w) {v : Int} (h1 : -2 ^ (w - 1) ≤ v) (h2 : v < 2 ^ (w - 1)) :
    asSigned w v = v := storeSigned_toInt hw h1 h2

/-- A pattern of the cell's own width is kept. -/
@[simp] theorem storeSigned_sext {w : Nat} (hw : 0 < w) (v : BitVec w) : storeSigned w (sext v) = v :=
  BitVec.eq_of_toInt_eq (storeSigned_toInt hw (by have := BitVec.le_toInt v; simpa [sext] using this)
    (by have := @BitVec.toInt_lt w v; simpa [sext] using this))

@[simp] theorem asSigned_sext {w : Nat} (hw : 0 < w) (v : BitVec w) : asSigned w (sext v) = v.toInt := by
  rw [asSigned, storeSigned_sext hw]

/-! ### Extraction -/

theorem legalSlice_iff (start width : Nat) :
    legalSlice start width = true ↔ 1 ≤ width ∧ start + width ≤ 16 := by
  simp only [legalSlice, Bool.and_eq_true, decide_eq_true_eq]
  omega

/-- The masked pattern of EXTRACT (40_extract.md rule R121). -/
theorem masked_toNat (word : Word) (start width : Nat) (hw : width ≤ 16) :
    ((word.zeroExtend 32 >>> start) &&& BitVec.ofNat 32 (2 ^ width - 1)).toNat = word.toNat / 2 ^ start % 2 ^ width := by
  have h1 : 2 ^ width - 1 < 2 ^ 32 := by
    have := Nat.pow_le_pow_right (show 0 < 2 by norm_num) hw
    omega
  have h2 : word.toNat < 2 ^ 32 := lt_trans word.isLt (by norm_num)
  simp only [BitVec.toNat_and, BitVec.toNat_ushiftRight, BitVec.toNat_ofNat, BitVec.zeroExtend, BitVec.toNat_setWidth,
    Nat.mod_eq_of_lt h1, Nat.mod_eq_of_lt h2, Nat.and_two_pow_sub_one_eq_mod, Nat.shiftRight_eq_div_pow]

/-- OR-ing ones above bit `width - 1` subtracts `2 ^ width` (40_extract.md rule R122). -/
theorem signExtended_toInt (v : I32) (width : Nat) (hw : width ≤ 16) (hv : v.toNat < 2 ^ width) :
    (v ||| (0xFFFFFFFF#32 <<< width)).toInt = (v.toNat : Int) - 2 ^ width := by
  have hp : 2 ^ width ≤ 2 ^ 16 := Nat.pow_le_pow_right (by norm_num) hw
  have hs : (0xFFFFFFFF#32 <<< width).toNat = 2 ^ width * (2 ^ (32 - width) - 1) := by
    interval_cases width <;> decide
  have h : (v ||| (0xFFFFFFFF#32 <<< width)).toNat = 2 ^ width * (2 ^ (32 - width) - 1) + v.toNat := by
    rw [BitVec.toNat_or, hs, Nat.or_comm, ← Nat.two_pow_add_eq_or_of_lt hv]
  have hm : 2 ^ width * (2 ^ (32 - width) - 1) = 2 ^ 32 - 2 ^ width := by
    rw [Nat.mul_sub, ← pow_add, Nat.mul_one]
    congr 2
    omega
  rw [BitVec.toInt_eq_toNat_cond, h, hm]
  split
  · omega
  · have hc : ((2 ^ 32 - 2 ^ width + v.toNat : Nat) : Int) = 2 ^ 32 - 2 ^ width + v.toNat := by
      rw [Nat.cast_add, Nat.cast_sub (by omega)]
      push_cast
      rfl
    rw [hc]
    push_cast
    omega

/-- EXTRACT is the sub-field by integer division (40_extract.md rule R121: `zext_n`, `sext_n`). -/
theorem extractInt_eq_fieldInt {start width : Nat} (h : legalSlice start width = true) (word : Word) (signed : Bool) :
    extractInt word start width signed = fieldInt word start width signed := by
  obtain ⟨h1, h2⟩ := (legalSlice_iff start width).1 h
  have hw : width ≤ 16 := by omega
  have hm := masked_toNat word start width hw
  have hp : 2 ^ width ≤ 2 ^ 16 := Nat.pow_le_pow_right (by norm_num) hw
  have hv : word.toNat / 2 ^ start % 2 ^ width < 2 ^ width := Nat.mod_lt _ (by positivity)
  have hsplit : 2 ^ width = 2 * 2 ^ (width - 1) := by rw [← pow_succ']; congr 1; omega
  unfold extractInt extractBits fieldInt
  generalize hx : (word.zeroExtend 32 >>> start) &&& BitVec.ofNat 32 (2 ^ width - 1) = x at hm
  have hbit : x.getLsbD (width - 1) = decide (2 ^ (width - 1) ≤ word.toNat / 2 ^ start % 2 ^ width) := by
    rw [BitVec.getLsbD, hm, Nat.testBit_eq_decide_div_mod_eq]
    congr 1
    rw [eq_iff_iff]
    generalize word.toNat / 2 ^ start % 2 ^ width = k at hv
    constructor
    · intro hk
      by_contra hlt
      rw [Nat.div_eq_of_lt (by omega)] at hk
      omega
    · intro hk
      have : k / 2 ^ (width - 1) = 1 := Nat.div_eq_of_lt_le (by omega) (by omega)
      rw [this]
  have hsmall : x.toInt = (x.toNat : Int) := by
    rw [BitVec.toInt_eq_toNat_of_lt]
    omega
  cases signed <;> simp only [Bool.false_and, Bool.true_and, Bool.false_eq_true, if_false, false_and, true_and, hbit,
    decide_eq_true_eq, hsmall, hm]
  split
  · rw [signExtended_toInt x width hw (hm ▸ hv), hm]
  · rw [hsmall, hm]

/-! ### The accessor -/

theorem memRead_out {a : Nat} (h : outOfRange a = true) (sp : Space) (m : Memory) : memRead sp m a = 0#16 := by
  have h' : sp.holds a = false := by
    unfold outOfRange at h
    cases sp <;> simp_all
  simp [memRead, h']

theorem memRead_ee {a : Nat} (h1 : 0x2400 ≤ a) (h2 : a ≤ 0x273F) (m : Memory) : memRead .ee m a = eeWord m a := by
  simp [memRead, Space.holds, Space.base, Space.top, h1, h2, eeWord]

theorem memRead_fr {a : Nat} (h1 : 0x0400 ≤ a) (h2 : a ≤ 0x073F) (m : Memory) : memRead .fr m a = frWord m a := by
  simp [memRead, Space.holds, Space.base, Space.top, h1, h2, frWord]

/-- A field tuple inside the frame's space, by integer division. -/
theorem readField_fr {f : FieldTuple} (h1 : 0x0400 ≤ f.addr) (h2 : f.addr ≤ 0x073F) (h : sliceLegal f.slice = true)
    (m : Memory) : readField .fr m f = fieldInt (frWord m f.addr) f.slice.start f.slice.width f.slice.signed := by
  rw [readField, memRead_fr h1 h2, extractInt_eq_fieldInt h]

/-- A field tuple inside the EEPROM image, by integer division. -/
theorem readField_ee {f : FieldTuple} (h1 : 0x2400 ≤ f.addr) (h2 : f.addr ≤ 0x273F) (h : sliceLegal f.slice = true)
    (m : Memory) : readField .ee m f = fieldInt (eeWord m f.addr) f.slice.start f.slice.width f.slice.signed := by
  rw [readField, memRead_ee h1 h2, extractInt_eq_fieldInt h]

end Sys2Proof.Machine
end

