-- ==== Sys2Proof/Laws/PerInstr.lean ====
section
/-! SUPPORT. The family EncodedRow: the encoding of an instruction is a word of its own row of spec/opcode_table.json: a command
word that agrees with the row's match under the row's mask, or a record word. -/

namespace Sys2Proof.Laws

/-- The code is a command word that agrees with a row's match under its mask. -/
def EncodedRow.commandOf (c : Code) (mask mtch : CmdWord) : Prop :=
  match c with
  | .command cw => cw &&& mask = mtch
  | .record _ _ => False

/-- The code is a record word. -/
def EncodedRow.isRecord (c : Code) : Prop :=
  match c with
  | .command _ => False
  | .record _ _ => True

/-- The encoding agrees with the row (masks and matches of spec/opcode_table.json). -/
def EncodedRow.Statement (i : Instr) : Prop :=
  match i with
  | .extract _ _ _ _ => EncodedRow.commandOf (encode i) 0xF0030000#32 0x10000000#32
  | .decode _ => EncodedRow.commandOf (encode i) 0xF7FFFFFF#32 0x20000000#32
  | .compensate => EncodedRow.commandOf (encode i) 0xFFFFFFFF#32 0x30000000#32
  | .sext6 _ => EncodedRow.commandOf (encode i) 0xFFFFFFC0#32 0x19800000#32
  | .nibble _ _ => EncodedRow.commandOf (encode i) 0xFFCF0000#32 0x19000000#32
  | _ => EncodedRow.isRecord (encode i)

theorem EncodedRow.extract (signed : Bool) (width : BitVec 5) (start : BitVec 4) (word : Word) :
    EncodedRow.Statement (.extract signed width start word) := by
  change encodeExtract signed width start word &&& 0xF0030000#32 = 0x10000000#32
  refine BitVec.eq_of_getLsbD_eq fun k hk => ?_
  interval_cases k <;> simp [encodeExtract, placed]

theorem EncodedRow.decode (skip : Bool) : EncodedRow.Statement (.decode skip) := by
  cases skip <;> rfl

theorem EncodedRow.compensate : EncodedRow.Statement .compensate := rfl

theorem EncodedRow.sext6 (v : BitVec 6) : EncodedRow.Statement (.sext6 v) := by
  change encodeExtract true 6#5 0#4 (v.setWidth 16) &&& 0xFFFFFFC0#32 = 0x19800000#32
  refine BitVec.eq_of_getLsbD_eq fun k hk => ?_
  interval_cases k <;> simp [encodeExtract, placed]

theorem EncodedRow.nibble (w : Word) (j : BitVec 2) : EncodedRow.Statement (.nibble w j) := by
  change encodeExtract true 4#5 (placed 4 j 2) w &&& 0xFFCF0000#32 = 0x19000000#32
  refine BitVec.eq_of_getLsbD_eq fun k hk => ?_
  interval_cases k <;> simp [encodeExtract, placed]

theorem EncodedRow.w2410 (remScale colScale rowScale aPtatEE : BitVec 4) :
    EncodedRow.Statement (.w2410 remScale colScale rowScale aPtatEE) := trivial
theorem EncodedRow.w2420 (aRemScale aColScale aRowScale aScaleEE : BitVec 4) :
    EncodedRow.Statement (.w2420 aRemScale aColScale aRowScale aScaleEE) := trivial
theorem EncodedRow.w2432 (ktLow : BitVec 8) (ktMid : BitVec 2) (kvPtatEE : BitVec 6) :
    EncodedRow.Statement (.w2432 ktLow ktMid kvPtatEE) := trivial
theorem EncodedRow.w2433 (vdd25EE kVddEE : BitVec 8) : EncodedRow.Statement (.w2433 vdd25EE kVddEE) := trivial
theorem EncodedRow.w2434 (kvN0 kvN1 kvN2 kvN3 : BitVec 4) : EncodedRow.Statement (.w2434 kvN0 kvN1 kvN2 kvN3) := trivial
theorem EncodedRow.w2436 (ktaB0 ktaB1 : BitVec 8) : EncodedRow.Statement (.w2436 ktaB0 ktaB1) := trivial
theorem EncodedRow.w2437 (ktaB2 ktaB3 : BitVec 8) : EncodedRow.Statement (.w2437 ktaB2 ktaB3) := trivial
theorem EncodedRow.w2438 (unused kvScale kTaScale1EE kTaScale2 : BitVec 4) :
    EncodedRow.Statement (.w2438 unused kvScale kTaScale1EE kTaScale2) := trivial
theorem EncodedRow.w243C (tgc ksTa : BitVec 8) : EncodedRow.Statement (.w243C tgc ksTa) := trivial
theorem EncodedRow.ptat25 (v : Word) : EncodedRow.Statement (.ptat25 v) := trivial
theorem EncodedRow.eeGain (v : Word) : EncodedRow.Statement (.eeGain v) := trivial
theorem EncodedRow.offsetAvg (v : Word) : EncodedRow.Statement (.offsetAvg v) := trivial
theorem EncodedRow.alphaAvg (v : Word) : EncodedRow.Statement (.alphaAvg v) := trivial
theorem EncodedRow.occRow (k : Fin 6) (a b c d : BitVec 4) : EncodedRow.Statement (.occRow k a b c d) := trivial
theorem EncodedRow.occCol (k : Fin 8) (a b c d : BitVec 4) : EncodedRow.Statement (.occCol k a b c d) := trivial
theorem EncodedRow.accRow (k : Fin 6) (a b c d : BitVec 4) : EncodedRow.Statement (.accRow k a b c d) := trivial
theorem EncodedRow.accCol (k : Fin 8) (a b c d : BitVec 4) : EncodedRow.Statement (.accCol k a b c d) := trivial
theorem EncodedRow.pixword (i : Pixel) (outlier : BitVec 1) (kTaIncrement : BitVec 3) (alphaLo : BitVec 4)
    (alphaHi : BitVec 2) (pixOff : BitVec 6) :
    EncodedRow.Statement (.pixword i outlier kTaIncrement alphaLo alphaHi pixOff) := trivial
theorem EncodedRow.rawPixel (i : Pixel) (v : Word) : EncodedRow.Statement (.rawPixel i v) := trivial
theorem EncodedRow.ambientProxyRaw (v : Word) : EncodedRow.Statement (.ambientProxyRaw v) := trivial
theorem EncodedRow.vddRaw (v : Word) : EncodedRow.Statement (.vddRaw v) := trivial
theorem EncodedRow.vBe (v : Word) : EncodedRow.Statement (.vBe v) := trivial
theorem EncodedRow.gainRam (v : Word) : EncodedRow.Statement (.gainRam v) := trivial
theorem EncodedRow.statusWord (subpage : BitVec 1) (ignored : BitVec 15) :
    EncodedRow.Statement (.statusWord subpage ignored) := trivial

end Sys2Proof.Laws
end

