-- ==== Sys2Proof/Laws/Reads.lean ====
section
/-! SUPPORT. What an operation reads of its image: two images that agree there give the same temporaries. -/

namespace Sys2Proof.Machine

/-- A field is read from the word at its address alone. -/
theorem readField_congr {sp : Space} {m m' : Memory} {f : FieldTuple} (h : memRead sp m f.addr = memRead sp m' f.addr) :
    readField sp m f = readField sp m' f := by
  rw [readField, readField, h]

/-- The header is read from the four configured addresses alone (42_compensate.md rule R192). -/
theorem readHeader_congr {c : Config} {m m' : Memory} (h : ∀ a ∈ compensateAddrs c, memRead .fr m a = memRead .fr m' a)
    (t : FrameTemps) : readHeader c m t = readHeader c m' t := by
  simp only [compensateAddrs, List.mem_cons, List.not_mem_nil, or_false, forall_eq_or_imp, forall_eq] at h
  simp only [readHeader, readField, vddRawField, ambientProxyRawField, vBeField, gainRamField, h]

/-- A raw pixel is read from its own word alone (42_compensate.md rule R202). -/
theorem readRawPixel_congr {m m' : Memory} {i : Pixel} (h : m.word i = m'.word i) (c : Config) :
    readField .fr m (rawPixelField c i) = readField .fr m' (rawPixelField c i) := by
  apply readField_congr
  have h1 : 0x0400 ≤ 0x0400 + i.val := by omega
  have h2 : 0x0400 + i.val ≤ 0x073F := by omega
  simp only [rawPixelField, memRead_fr h1 h2, frWord, Nat.add_sub_cancel_left, h]

/-- A frame is read at the header addresses, in bit 0 of the status word when extended, and in the gated pixels
(42_compensate.md rules R192, R200 to R202). -/
theorem readFrame_congr {c : Config} {extended : Bool} {m m' : Memory}
    (hs : extended = true → (m.word 832).toNat % 2 = (m'.word 832).toNat % 2)
    (ha : ∀ a ∈ compensateAddrs c, memRead .fr m a = memRead .fr m' a)
    (hp : ∀ i : Pixel, gate extended ((m.word 832).toNat % 2) i = true → m.word i = m'.word i) (t : FrameTemps) :
    readFrame c extended m t = readFrame c extended m' t := by
  have hsub : readSubpage extended m (readHeader c m t) = readSubpage extended m' (readHeader c m' t) := by
    rw [readHeader_congr ha]
    cases extended with
    | false => rfl
    | true => simp only [readSubpage, if_true, rowStatusWord, readStatusWord, hs rfl]
  have hg : ∀ i, gate extended (readSubpage extended m (readHeader c m t)).subpage i = true → m.word i = m'.word i := by
    intro i h
    apply hp
    cases extended with
    | false => rfl
    | true => simpa [readSubpage, rowStatusWord, readStatusWord] using h
  rw [readFrame, readFrame, ← hsub]
  generalize readSubpage extended m (readHeader c m t) = u at hg
  have : (fun i : Pixel =>
      if gate extended u.subpage i then asSigned 16 (readField .fr m (rawPixelField c i)) else u.rawPixel.get i) =
      fun i => if gate extended u.subpage i then asSigned 16 (readField .fr m' (rawPixelField c i)) else u.rawPixel.get i := by
    funext i
    split
    · rename_i h
      rw [readRawPixel_congr (hg i h)]
    · rfl
  rw [readRawPixels, readRawPixels, this]

/-- The image of a DECODE is read at the addresses of its field table (41_decode.md rule R141). -/
theorem decodeImage_congr {c : Config} {m m' : Memory} (h : ∀ a ∈ decodeAddrs c, memRead .ee m a = memRead .ee m' a)
    (t : DecodeTemps) : decodeImage c m t = decodeImage c m' t := by
  have hf : ∀ f : FieldTuple, f.addr ∈ decodeAddrs c → readField .ee m f = readField .ee m' f := fun f hf =>
    readField_congr (h _ hf)
  have hspan : ∀ base n k : Nat, k < n → base + k ∈ span base n := fun base n k hk => by
    rw [span, List.mem_range'_1]
    omega
  have hscalar : ∀ f ∈ scalarFields c.ft, readField .ee m f = readField .ee m' f := fun f hm =>
    hf f (by simp only [decodeAddrs, List.mem_append]; exact .inl (.inl (.inl (.inl (.inl (.inl (List.mem_map_of_mem hm)))))))
  have hscalars : ∀ t, decodeScalars c m t = decodeScalars c m' t := by
    intro t
    simp only [scalarFields, List.cons_append, List.nil_append, List.mem_cons, List.not_mem_nil, or_false,
      forall_eq_or_imp, forall_eq] at hscalar
    have h1 := hf (offsetAvgField c) (by simp [decodeAddrs, offsetAvgField])
    have h2 := hf (aAvgField c) (by simp [decodeAddrs, aAvgField])
    simp only [decodeScalars, hscalar, h1, h2]
  have helems : ∀ {k : Nat} (base n : Nat) (sl : Cells k Slice), (∀ a ∈ span base n, a ∈ decodeAddrs c) → k ≤ 4 * n →
      readElements m base sl = readElements m' base sl := by
    intro k base n sl hsub hk
    rw [readElements, readElements, show (fun j => readField .ee m (elementField base sl j)) =
      fun j => readField .ee m' (elementField base sl j) from ?_]
    funext j
    exact hf _ (hsub _ (hspan base n (j.val / 4) (by omega)))
  have hpix : ∀ (sl : Slice) (i : Pixel), readField .ee m (pixField c sl i) = readField .ee m' (pixField c sl i) := fun sl i =>
    hf _ (by simp only [decodeAddrs, List.mem_append]; exact .inr (hspan c.aPix 768 i.val i.isLt))
  have harr : ∀ t, decodeArrays c m t = decodeArrays c m' t := by
    intro t
    rw [decodeArrays, decodeArrays,
      helems c.aOccRow 6 c.arr.offsetRow (fun a ha => by simp [decodeAddrs, ha]) (by omega),
      helems c.aOccCol 8 c.arr.offsetCol (fun a ha => by simp [decodeAddrs, ha]) (by omega),
      helems c.aAccRow 6 c.arr.aRow (fun a ha => by simp [decodeAddrs, ha]) (by omega),
      helems c.aAccCol 8 c.arr.aCol (fun a ha => by simp [decodeAddrs, ha]) (by omega)]
  have hpixels : ∀ t, decodePixels c m t = decodePixels c m' t := by
    intro t
    simp only [decodePixels, readPixels, hpix]
  rw [decodeImage, decodeImage, hscalars, harr, hpixels]

end Sys2Proof.Machine
end

