-- ==== Sys2Proof/Tests/Slice0.lean ====
section
/-! SUPPORT. The tests: ill-formed terms, words written out from the spec's encodings, the vectors of 95_test_vectors.md (its ids in
the comments), and for each obligation with hypotheses a concrete state and operands that meet them. -/

namespace Sys2Proof.Machine

set_option Elab.async false

/-! ### Helpers -/

/-- An EEPROM image: 1664 bytes, all zero but the words listed by logical address. -/
def image (ws : List (Nat × Word)) : Memory := ws.foldl (fun m p => m.storeWord (p.1 - 0x2400) p.2) (Memory.zeros 1664)

/-- A plain frame, likewise. -/
def frame (ws : List (Nat × Word)) : Memory := ws.foldl (fun m p => m.storeWord (p.1 - 0x0400) p.2) (Memory.zeros 1664)

/-- The default configuration with the signatures of 95_test_vectors.md program P2. -/
def testCfg (ext : Bool) : Config := defaultConfig ext ⟨[1, 2, 3, 4, 5, 6], rfl⟩ ⟨[6, 7, 8, 9, 10, 11, 12, 13], rfl⟩

/-- The state after a reset, with the host's requests. -/
def start (ext : Bool) (r : List Request) : State := State.afterReset (testCfg ext) freeDraw r

/-- What holds of the next state, if there is one. -/
def onNext {α : Type} (o : Host.Outcome State Fault Refusal) (f : State → α) : Option α :=
  match o with
  | .next s => some (f s)
  | .fault _ => none
  | .refused _ => none

/-- The state with a calibration said to be committed. -/
def calibrated (ext : Bool) (m : Memory) : State :=
  { start ext [] with status := { calValid := true, wTgc := false, eAor := false, lastErr := 0#4 }, din := m }

/-- Image E2 (95_test_vectors.md section 2.3). -/
def imageE2 : Memory :=
  image [(0x240A, 0x2F44), (0x2410, 0x4321), (0x2411, 0xFFBB), (0x2412, 0x8F17), (0x2418, 0x0021), (0x241A, 0x1977),
    (0x2420, 0x7321), (0x2421, 0x2328), (0x2422, 0x00F1), (0x2428, 0x00E2), (0x2432, 0x5952), (0x2433, 0x9D68),
    (0x2434, 0x5454), (0x2436, 0x4210), (0x2437, 0xF00F), (0x2438, 0x2363), (0x243C, 0x05FF), (0x2440, 0xF60E),
    (0x2441, 0x7DF7), (0x273F, 0x8000)]

/-- Frame F2 (95_test_vectors.md section 2.4). -/
def frameF2 : Memory :=
  frame [(0x072A, 0xCD38), (0x0720, 0x0640), (0x0700, 0x4B00), (0x070A, 0x19C8), (0x0400, 0x0064), (0x0401, 0xFFF0),
    (0x0421, 0x012C)]

/-- An image with the signatures of `testCfg` at bytes 0x07 to 0x13 (95_test_vectors.md program P2). -/
def imageSigned : Memory :=
  image [(0x2403, 0x0100), (0x2404, 0x0302), (0x2405, 0x0504), (0x2406, 0x0706), (0x2407, 0x0908), (0x2408, 0x0B0A),
    (0x2409, 0x0D0C)]

/-- The same with the last byte wrong: image I of 95_test_vectors.md program P2. -/
def imageUnsigned : Memory := imageSigned.store 0x13 0x0E

/-- An extended frame of zeros but for the status word. -/
def extendedFrame (status : Word) : Memory := (Memory.zeros 1728).storeWord 832 status

/-! ### WellFormed: an ill-formed term for each check -/

/-- A word of the SEXT6 row is not spelt EXTRACT (30_encoding.md rule R107). -/
theorem test_wf_refuses_sext6_spelling : (Instr.extract true 6 0 0x003F).wf = false := by decide
/-- A word of the NIBBLE row is not spelt EXTRACT (30_encoding.md rule R107). -/
theorem test_wf_refuses_nibble_spelling : (Instr.extract true 4 12 0x8F17).wf = false := by decide
theorem test_wf_accepts_neighbours :
    (Instr.extract true 6 0 0x0040).wf = true ∧ (Instr.extract false 6 0 0x003F).wf = true ∧
      (Instr.extract true 4 1 0x8F17).wf = true ∧ (Instr.extract false 4 12 0x8F17).wf = true := by decide

/-! ### Decoding: each constructor by a word written out from its encoding -/

/-- V1: 0001 1 00110 1010 00 1000000000000000. -/
theorem test_decode_extract : decodeCommand 0x19A88000 = .ok (.extract true 6 10 0x8000) := by decide
/-- V16: 0001 0 10001 0000 00 0001001000110100, the width field 17. -/
theorem test_decode_extract_width17 : decodeCommand 0x14401234 = .ok (.extract false 17 0 0x1234) := by decide
/-- R102: 0010 k 000... -/
theorem test_decode_decode :
    decodeCommand 0x20000000 = .ok (.decode false) ∧ decodeCommand 0x28000000 = .ok (.decode true) := by decide
/-- R103. -/
theorem test_decode_compensate : decodeCommand 0x30000000 = .ok .compensate := by decide
/-- V10, S1. -/
theorem test_decode_sext6 :
    decodeCommand 0x1980003F = .ok (.sext6 63) ∧ decodeCommand 0x19800020 = .ok (.sext6 32) := by decide
/-- V8, V9. -/
theorem test_decode_nibble :
    decodeCommand 0x19308F17 = .ok (.nibble 0x8F17 3) ∧ decodeCommand 0x19208F17 = .ok (.nibble 0x8F17 2) := by decide
/-- V18, V19 and R105 at the lowest and highest must-be-zero bits. -/
theorem test_decode_rejects :
    decodeCommand 0x12015952 = .error (.reservedBits 1) ∧ decodeCommand 0x12025952 = .error (.reservedBits 1) ∧
      decodeCommand 0x20000001 = .error (.reservedBits 2) ∧ decodeCommand 0x24000000 = .error (.reservedBits 2) ∧
      decodeCommand 0x30000001 = .error (.reservedBits 3) ∧ decodeCommand 0x38000000 = .error (.reservedBits 3) ∧
      decodeCommand 0x00000000 = .error (.reservedOpcode 0) ∧ decodeCommand 0x40000000 = .error (.reservedOpcode 4) ∧
      decodeCommand 0xF0000000 = .error (.reservedOpcode 15) := by decide
/-- V20: rem_scale 5, col_scale 6, row_scale 10, a_PTAT_EE 9. -/
theorem test_decode_w2410 : decodeRow .w2410 0x9A65 = .w2410 5 6 10 9 := by decide
/-- R149: a_rem_scale 1, a_col_scale 2, a_row_scale 3, a_scale_EE 7. -/
theorem test_decode_w2420 : decodeRow .w2420 0x7321 = .w2420 1 2 3 7 := by decide
/-- V22: KT_low 82, KT_mid 1, KV_PTAT_EE 22. -/
theorem test_decode_w2432 : decodeRow .w2432 0x5952 = .w2432 82 1 22 := by decide
/-- V24: Vdd_25_EE 104, K_Vdd_EE -99. -/
theorem test_decode_w2433 : decodeRow .w2433 0x9D68 = .w2433 104 (-99) := by decide
/-- V27: 7, 0, 0, -8. -/
theorem test_decode_w2434 : decodeRow .w2434 0x8007 = .w2434 7 0 0 (-8) := by decide
/-- V28. -/
theorem test_decode_w2436 : decodeRow .w2436 0x4210 = .w2436 16 66 := by decide
/-- V28. -/
theorem test_decode_w2437 : decodeRow .w2437 0xF00F = .w2437 15 (-16) := by decide
/-- V29: unused 3, K_V_scale 6, K_Ta_scale1_EE 3, K_Ta_scale2 2. -/
theorem test_decode_w2438 : decodeRow .w2438 0x2363 = .w2438 3 6 3 2 := by decide
/-- V31: TGC -1, KsTa 5. -/
theorem test_decode_w243C : decodeRow .w243C 0x05FF = .w243C (-1) 5 := by decide
/-- R92, R93, R98: one field of 16 bits. -/
theorem test_decode_whole_words :
    decodeRow .ptat25 0x2F44 = .ptat25 12100 ∧ decodeRow .eeGain 0xFFFF = .eeGain (-1) ∧
      decodeRow .offsetAvg 0xFFBB = .offsetAvg (-69) ∧ decodeRow .alphaAvg 0xFFBB = .alphaAvg 65467 ∧
      decodeRow (.rawPixel 767) 0xB1E0 = .rawPixel 767 (-20000) ∧
      decodeRow .ambientProxyRaw 0x0640 = .ambientProxyRaw 1600 ∧ decodeRow .vddRaw 0xCD38 = .vddRaw (-13000) ∧
      decodeRow .vBe 0x4B00 = .vBe 19200 ∧ decodeRow .gainRam 0x19C8 = .gainRam 6600 := by decide
/-- R158, R159: elements 7, 1, -1, -8; 1, 2, 0, 0; and the like. -/
theorem test_decode_nibble_arrays :
    decodeRow (.occRow 0) 0x8F17 = .occRow 0 7 1 (-1) (-8) ∧ decodeRow (.occCol 7) 0x0021 = .occCol 7 1 2 0 0 ∧
      decodeRow (.accRow 5) 0x00F1 = .accRow 5 1 (-1) 0 0 ∧ decodeRow (.accCol 7) 0x0021 = .accCol 7 1 2 0 0 := by decide
/-- 95_test_vectors.md section 2.3: pixel 0 word 0xF60E (0, -1, alpha 2:0, -3), pixel 1 word 0x7DF7. -/
theorem test_decode_pixword :
    decodeRow (.pixword 0) 0xF60E = .pixword 0 0 (-1) 0 2 (-3) ∧
      decodeRow (.pixword 1) 0x7DF7 = .pixword 1 1 3 15 1 31 := by decide
/-- V67, V68: bit 0 and the fifteen bits above it. -/
theorem test_decode_statusWord :
    decodeRow .statusWord 0xFFFE = .statusWord 0 0x7FFF ∧ decodeRow .statusWord 0x8001 = .statusWord 1 0x4000 := by decide
/-- S4: re-encoding the fields of word 0x2438 recovers the word. -/
theorem test_encode_w2438 : encode (.w2438 3 6 3 2) = .record .w2438 0x2363 := by decide
/-- V1. -/
theorem test_encode_extract : encode (.extract true 6 10 0x8000) = .command 0x19A88000 := by decide

/-! ### EXTRACT, SEXT6, NIBBLE (95_test_vectors.md section 2.1) -/

/-- The code and the value of the response to a command word, from reset. -/
def answer (cw : CmdWord) : Option (Option (BitVec 4 × I32)) :=
  onNext (step (start false [.command cw Memory.empty])) fun s => s.resp.map fun r => (r.code, r.value)

/-- V1, V2. -/
theorem test_extract_sign : answer 0x19A88000 = some (some (0, -32)) ∧ answer 0x11A88000 = some (some (0, 32)) := by
  decide +kernel
/-- V3, V4, V5, V7. -/
theorem test_extract_ends :
    answer 0x1C00FFFF = some (some (0, -1)) ∧ answer 0x1400FFFF = some (some (0, 65535)) ∧
      answer 0x18400001 = some (some (0, -1)) ∧ answer 0x187C8000 = some (some (0, -1)) := by decide +kernel
/-- S1. -/
theorem test_sext6 : answer 0x19800020 = some (some (0, -32)) ∧ answer 0x1980001F = some (some (0, 31)) := by decide +kernel
/-- V8, V9 and R125. -/
theorem test_nibble :
    answer 0x19308F17 = some (some (0, -8)) ∧ answer 0x19208F17 = some (some (0, -1)) ∧
      answer 0x19008F17 = some (some (0, 7)) := by decide +kernel
/-- V15, V16, V17: IllegalOperand; V18, V19: IllegalCommand. -/
theorem test_extract_errors :
    answer 0x10001234 = some (some (7, 0)) ∧ answer 0x14401234 = some (some (7, 0)) ∧
      answer 0x12301234 = some (some (7, 0)) ∧ answer 0x12015952 = some (some (6, 0)) ∧
      answer 0x40000000 = some (some (6, 0)) := by decide +kernel

/-! ### DECODE of image E2 (95_test_vectors.md section 2.3) -/

/-- From reset, `DECODE skip E2`. -/
def startE2 : State := start false [.command 0x28000000 imageE2]

/-- V34. -/
theorem test_decode_status :
    onNext (step startE2) (fun s => (s.status, s.resp.map Response.code)) = some (⟨true, true, false, 0⟩, some 0) := by
  decide +kernel
/-- V35. -/
theorem test_decode_scalars :
    onNext (step startE2) (fun s => (s.cal.aPtat, s.cal.kTPtat, s.cal.kVPtat, s.cal.vdd25, s.cal.kVdd)) =
      some (0x4022000000000000, 0x4045200000000000, 0x3F76000000000000, 104, -99) ∧
    onNext (step startE2) (fun s => (s.cal.vPtat25, s.cal.gainEe, s.cal.kV)) =
      some (12100, 6519, ⟨0x3FB0000000000000, 0x3FB0000000000000, 0x3FB4000000000000, 0x3FB4000000000000⟩) := by
  decide +kernel
/-- V36 to V42, `offset_ref`. -/
theorem test_decode_offsets :
    onNext (step startE2) (fun s => ([0, 1, 2, 8, 10, 11, 32, 33, 767] : List Pixel).map s.cal.offsetRef.get) =
      some [-15, 57, -13, 15, -41, -9, -57, -53, -133] := by decide +kernel
/-- V36, V37, V40, `a_ref` and `K_Ta`. -/
theorem test_decode_sensitivities :
    onNext (step startE2) (fun s => (s.cal.aRef.get 0, s.cal.aRef.get 1, s.cal.aRef.get 32, s.cal.kTa.get 1)) =
      some (0x3E717C0000000000, 0x3E71B30000000000, 0x3E71940000000000, 0x3F8C000000000000) := by decide +kernel

/-- 95_test_vectors.md program P2, steps 2, 3 and 4. -/
theorem test_decode_errors :
    onNext (step (start false [.command 0x20000000 (Memory.zeros 1662)])) (fun s => s.status) =
      some ⟨false, false, false, 1⟩ ∧
    onNext (step (start false [.command 0x20000000 imageUnsigned])) (fun s => s.status) = some ⟨false, false, false, 2⟩ ∧
    onNext (step (start false [.command 0x20000000 imageSigned])) (fun s => s.status) = some ⟨true, false, false, 0⟩ := by
  decide +kernel
/-- Program P2, step 3, the diagnosis words 3 to 9. -/
theorem test_decode_diag :
    onNext (step (start false [.command 0x20000000 imageUnsigned]))
      (fun s => s.resp.map fun r => ([3, 4, 8, 9, 10] : List (Fin 16)).map r.diag.get) =
      some (some [0x0100, 0x0302, 0x0B0A, 0x0E0C, 0x0000]) := by decide +kernel

/-! ### COMPENSATE and TRACK (95_test_vectors.md sections 2.4 to 2.6) -/

/-- A COMPENSATE of F2 after the DECODE of E2, its per-frame scalars. -/
def scalarsF2 : Option FrameScalars :=
  onNext (step startE2) fun s => frameScalars s.cfg.numerics s.cal (readFrame s.cfg false frameF2 s.work.frm)

/-- V43, V45. -/
theorem test_frame_scalars :
    scalarsF2.map (fun k => (k.dV, k.dTa, k.gain)) =
      some (0xBF9219DBCC48676F, 0x402230442FAA8793, 0x3FEF9B7639B7639B) := by decide +kernel
/-- V46, V49, V50, V51. -/
theorem test_compensate_errors :
    onNext (exec .compensate (calibrated false (Memory.zeros 1663))) (fun s => s.status.lastErr) = some 3 ∧
    onNext (exec .compensate (calibrated true (Memory.zeros 1664))) (fun s => s.status.lastErr) = some 3 ∧
    onNext (exec .compensate (calibrated false (Memory.zeros 1728))) (fun s => s.status.lastErr) = some 7 ∧
    onNext (exec .compensate (start true [])) (fun s => s.status.lastErr) = some 4 := by decide +kernel
/-- V65 to V68: which of the pixels 0, 1, 32, 33, 400, 767 each status word admits. -/
theorem test_gate :
    ([0x0000, 0x0001, 0xFFFE, 0x8001] : List Word).map (fun w =>
      ([0, 1, 32, 33, 400, 767] : List Pixel).map (gate true ((readStatusWord (extendedFrame w)).toNat % 2))) =
      [[true, false, false, true, true, true], [false, true, true, false, false, false],
       [true, false, false, true, true, true], [false, true, true, false, false, false]] := by decide +kernel
/-- V54: with `gain_ram` 0 and `gain_ee` 6400 the gain is +inf; the fourth root of +inf is +inf. -/
theorem test_infinite_gain :
    F64.div (F64.ofInt 6400) (F64.ofInt 0) = F64.inf false ∧ F64.pow (F64.inf false) F64.quarter = F64.inf false := by
  decide +kernel
/-- R207: the fourth power of an infinity is +inf; a fourth root of minus infinity is a NaN, by the rule's words (log 8). -/
theorem test_pow_of_minus_infinity :
    F64.pow (F64.inf true) F64.four = F64.inf false ∧
      F64.pow (F64.inf true) F64.quarter = F64.nan .pow (F64.inf true) F64.quarter := ⟨by decide +kernel, rfl⟩

/-- V55: with `ambient_proxy_raw` 0 the inner quotient of step 3 is +inf and `V_PTAT_art` is 0.0. -/
theorem test_infinite_quotient :
    F64.div (F64.ofInt 19200) (F64.ofInt 0) = F64.inf false ∧
      F64.div (F64.lit 262144 1) (F64.add 0x4022000000000000 (F64.inf false)) = F64.zero false := by decide +kernel
/-- R54: byte 0x13 is the high byte of word 9, byte 0x08 the low byte of word 4 (95_test_vectors.md program P2). -/
theorem test_identity_bytes : imageSigned.identityByte 0x13 = 0x0D ∧ imageSigned.identityByte 0x08 = 0x02 := by decide +kernel

/-- Cells of one value but for those listed. -/
def cellsWith (d : F64) (l : List (Nat × F64)) : Cells 768 F64 :=
  Cells.ofFn fun i => ((l.find? fun p => p.1 == i.val).map Prod.snd).getD d

/-- 25.0, 20.0, 90.0, 10.0 and a NaN. -/
def f25 : F64 := 0x4039000000000000
def f20 : F64 := 0x4034000000000000
def f90 : F64 := 0x4056800000000000
def f10 : F64 := 0x4024000000000000
def fNaN : F64 := 0x7FF8000000000000

/-- V59, V60 over their first 41 cells: the first of equal extremes. -/
theorem test_track_ties :
    scan F64.lt (cellsWith f25 [(5, f20), (9, f20)]) 40 = 5 ∧
      scan (fun a b => F64.lt b a) (cellsWith f25 [(5, f20), (40, f90)]) 40 = 40 := by decide +kernel
/-- V62, V63, V64 over their first 6 cells: a NaN in cell 0 stays, another is never selected, -0.0 is not below 0.0. -/
theorem test_track_special :
    scan F64.lt (cellsWith f25 [(0, fNaN)]) 5 = 0 ∧ scan F64.lt (cellsWith f25 [(3, fNaN), (4, f10)]) 5 = 4 ∧
      scan F64.lt (cellsWith 0x3FF0000000000000 [(0, 0), (1, 0x8000000000000000)]) 5 = 0 := by decide +kernel
/-- V61: the record of pixel 767 and of the centre. -/
theorem test_track_records :
    notableAt (cellsWith f25 [(767, f10)]) 767 = ⟨31, 23, f10⟩ ∧
      notableAt (cellsWith f25 [(400, f90)]) centerPixel = ⟨16, 12, f90⟩ := by decide +kernel

/-! ### The record words -/

/-- A state whose integer temporaries are all the one number. -/
def tempsOf (n : Int) : DecodeTemps where
  remScale := n
  colScale := n
  rowScale := n
  aPtatEE := n
  aRemScale := n
  aColScale := n
  aRowScale := n
  aScale := n
  kvScale := n
  kTaScale1 := n
  kTaScale2 := n
  tgc := n
  ksTa := n
  offsetAvg := n
  aAvg := n
  offsetRow := Cells.ofFn fun _ => n
  offsetCol := Cells.ofFn fun _ => n
  aRow := Cells.ofFn fun _ => n
  aCol := Cells.ofFn fun _ => n
  kTa2x2 := ⟨n, n, n, n⟩
  outlier := Cells.ofFn fun _ => n
  kTaIncrement := Cells.ofFn fun _ => n
  alphaRem := Cells.ofFn fun _ => n
  pixOff := Cells.ofFn fun _ => n
  staged := freeDraw.work.dec.staged

/-- The machine with those temporaries. -/
def withTemps (n : Int) : State :=
  { start false [] with work := { freeDraw.work with dec := tempsOf n } }

/-- V26: `K_V` of word 0x2434 with `K_V_scale` 6. -/
theorem test_row_w2434 :
    onNext (exec (decodeRow .w2434 0x5454) (withTemps 6)) (fun s => s.work.dec.staged.kV) =
      some ⟨0x3FB0000000000000, 0x3FB0000000000000, 0x3FB4000000000000, 0x3FB4000000000000⟩ := by decide +kernel
/-- V21, V23. -/
theorem test_rows_f64 :
    onNext (exec (decodeRow .w2410 0xF000) (withTemps 0)) (fun s => s.work.dec.staged.aPtat) = some 0x4027800000000000 ∧
    onNext (exec (decodeRow .w2432 0x83FF) (withTemps 0))
      (fun s => (s.work.dec.staged.kTPtat, s.work.dec.staged.kVPtat)) =
      some (0x405FF80000000000, 0xBF80000000000000) := by decide +kernel
/-- R162, R163: 0x0200 gives the alpha remainder -32, 0x8000 the offset remainder -32. -/
theorem test_row_pixword :
    onNext (exec (decodeRow (.pixword 5) 0x8200) (withTemps 1))
      (fun s => (s.work.dec.alphaRem.get 5, s.work.dec.pixOff.get 5, s.work.dec.alphaRem.get 6)) =
      some (-32, -32, 1) := by decide +kernel
/-- R158: word 0x8F17 gives elements 0 to 3, and leaves element 4. -/
theorem test_row_occRow :
    onNext (exec (decodeRow (.occRow 0) 0x8F17) (withTemps 5))
      (fun s => ([0, 1, 2, 3, 4] : List (Fin 24)).map s.work.dec.offsetRow.get) = some [7, 1, -1, -8, 5] := by
  decide +kernel
/-- V28. -/
theorem test_row_w2436 :
    onNext (exec (decodeRow .w2436 0x4210) (withTemps 0)) (fun s => s.work.dec.kTa2x2) = some ⟨0, 16, 0, 66⟩ := by
  decide +kernel

/-- A next state, from what the kernel evaluates. -/
theorem exists_next {o : Host.Outcome State Fault Refusal} (h : onNext o (fun _ => true) = some true) : ∃ t, o = .next t := by
  cases o with
  | next t => exact ⟨t, rfl⟩
  | fault f => cases h
  | refused r => cases h

/-- A next state with a response that is an error. -/
theorem exists_error {o : Host.Outcome State Fault Refusal}
    (h : onNext o (fun s => s.resp.map fun r => decide (r.code ≠ 0#4)) = some (some true)) :
    ∃ t r, o = .next t ∧ t.resp = some r ∧ r.code ≠ 0#4 := by
  cases o with
  | next t =>
    cases hr : t.resp with
    | none => simp [onNext, hr] at h
    | some r => exact ⟨t, r, rfl, hr, by simpa [onNext, hr] using h⟩
  | fault f => cases h
  | refused r => cases h

/-! ### Configurations -/

/-- An out-of-range address: the TGC field one word past the image (20_memory.md rule R58). -/
def cfgOut : Config :=
  { testCfg false with ft := { defaultFieldTable with tgc := sField 0x2740 0 8 } }

/-- A DECODE field in the frame's space: ill-formed (20_memory.md rule R58). -/
def cfgWrongSpace : Config := { testCfg false with aOffsetAvg := 0x0400 }

/-- A field past bit 15: ill-formed (40_extract.md rule R123). -/
def cfgPastWord : Config := { testCfg false with ft := { defaultFieldTable with tgc := sField 0x243C 9 8 } }

/-- A COMPENSATE field in the EEPROM's space: ill-formed (20_memory.md rule R58). -/
def cfgFrameBad : Config := { testCfg false with aVBe := 0x2400 }

/-- R58, R178: the field reads as 0, the DECODE commits, `E_AOR` is set. -/
theorem test_out_of_range_field :
    onNext (exec (.decode true) { start false [] with cfg := cfgOut, din := imageE2 }) (fun s => s.status) =
      some ⟨true, false, true, 0⟩ := by decide +kernel
/-- R80: the sub-field of an average is its tuple's; `a_avg` as bits 15 to 8 of 0x2328 is 0x23. -/
theorem test_other_field_tuple :
    readField .ee imageE2 (aAvgField { testCfg false with arr := { defaultArrayTable with aAvg := ⟨8, 8, false⟩ } }) = 35 := by
  decide +kernel
/-- R10: the ends of an `s16`. -/
theorem test_asSigned_ends : asSigned 16 (-32768) = -32768 ∧ asSigned 16 32767 = 32767 := by decide +kernel
/-- A field of 17 bits in a frame: ill-formed (40_extract.md rule R123). -/
theorem test_ill_formed_frame_field :
    compensateConfigWf { testCfg false with frm := { defaultFrameTable with rawPixel := ⟨0, 17, true⟩ } } = false := by decide
/-- U16: an ill-formed configuration is refused, after the tests of DECODE (log 10). -/
theorem test_ill_formed_refused :
    decodeConfigWf cfgWrongSpace = false ∧ decodeConfigWf cfgPastWord = false ∧ compensateConfigWf cfgFrameBad = false ∧
      decodeConfigWf cfgOut = true ∧ compensateConfigWf cfgOut = true ∧ configWf (testCfg true) = true := by decide +kernel

/-! ### Witnesses: for each obligation with hypotheses, a state and operands that meet them

Where an obligation has several clauses, one conjunct for each, at the ends of its ranges. -/

theorem witness_EncodeThenDecodeGivesInstruction :
    (Instr.extract true 6 10 0x8000).WellFormed ∧ (Instr.nibble 0x8F17 3).WellFormed ∧ (Instr.statusWord 1 0).WellFormed := by
  decide
theorem witness_DecodeThenEncodeGivesCode :
    decode (.command 0x19A88000) = .ok (.extract true 6 10 0x8000) ∧
      decode (.record .w2438 0x2363) = .ok (.w2438 3 6 3 2) := by decide
/-- A state that asks for V1, and one that asks for V18. -/
theorem witness_StepRunsDecodedInstruction :
    (start false [.command 0x19A88000 imageE2]).inbox = .command 0x19A88000 imageE2 :: [] ∧
      decodeCommand 0x19A88000 = .ok (.extract true 6 10 0x8000) := ⟨rfl, by decide⟩
theorem witness_IllegalCommandIsAnswered :
    (start false [.command 0x12015952 imageE2]).inbox = .command 0x12015952 imageE2 :: [] ∧
      decodeCommand 0x12015952 = .error (.reservedBits 1) := ⟨rfl, by decide⟩
theorem witness_ReadyAndResetSteps :
    (start true []).inbox = [] ∧ (start true [.reset freeDraw]).inbox = .reset freeDraw :: [] := ⟨rfl, rfl⟩
/-- Both clauses at the ends of the operand ranges. -/
theorem witness_ExtractAnswersField :
    (1 ≤ (16#5).toNat ∧ (0#4).toNat + (16#5).toNat ≤ 16) ∧ (1 ≤ (1#5).toNat ∧ (15#4).toNat + (1#5).toNat ≤ 16) ∧
      (0#5).toNat = 0 ∧ 16 < (0#4).toNat + (17#5).toNat ∧ 16 < (15#4).toNat + (2#5).toNat := by decide
theorem witness_ExtractionRange :
    legalSlice 0 16 = true ∧ legalSlice 15 1 = true ∧ legalSlice 0 1 = true := by decide
theorem witness_TemperatureScaleRows : (withTemps 0).cfg.numerics = .binary64 := rfl
theorem witness_W2434SetsVoltageGrid :
    (withTemps 0).cfg.numerics = .binary64 ∧ (withTemps 15).cfg.numerics = .binary64 ∧ ((withTemps 0).cfg.kvMap = defaultKvMap ∧ 0 ≤ (withTemps 0).work.dec.kvScale ∧ (withTemps 0).work.dec.kvScale ≤ 15) ∧
      ((withTemps 15).cfg.kvMap = defaultKvMap ∧ 0 ≤ (withTemps 15).work.dec.kvScale ∧
        (withTemps 15).work.dec.kvScale ≤ 15) := by decide
theorem witness_W2436AndW2437SetAmbientGrid : (withTemps 0).cfg.ktaMap = defaultKtaMap := rfl

/-- A machine with an image in the input buffer. -/
def loaded (m : Memory) : State := { start false [] with din := m }

theorem loaded_signed : signaturesMatch (testCfg false) imageSigned := by
  constructor <;> decide +kernel
theorem loaded_unsigned : ¬ signaturesMatch (testCfg false) imageUnsigned := fun h =>
  absurd (h.2 7) (by decide +kernel)

/-- With the check made, on a signed image; with it skipped, on any image. -/
theorem witness_DecodeCompletes :
    ((loaded imageSigned).status.calValid = false ∧ (loaded imageSigned).din.len = 1664 ∧
      decodeConfigWf (loaded imageSigned).cfg = true ∧
      signaturesMatch (loaded imageSigned).cfg (loaded imageSigned).din) ∧
    (loaded imageE2).status.calValid = false ∧ (loaded imageE2).din.len = 1664 ∧
      decodeConfigWf (loaded imageE2).cfg = true :=
  ⟨⟨rfl, by decide +kernel, by decide +kernel, loaded_signed⟩, rfl, by decide +kernel, by decide +kernel⟩
theorem witness_DecodeCommitsSourceScalars :
    hasDefaults (loaded imageSigned).cfg ∧ (loaded imageSigned).status.calValid = false ∧
      (loaded imageSigned).din.len = 1664 ∧ signaturesMatch (loaded imageSigned).cfg (loaded imageSigned).din :=
  ⟨rfl, rfl, by decide +kernel, loaded_signed⟩
theorem witness_DecodeCommitsTableScalars :
    hasDefaults (loaded imageE2).cfg ∧ (loaded imageE2).status.calValid = false ∧ (loaded imageE2).din.len = 1664 ∧
      ((true = true) ∨ signaturesMatch (loaded imageE2).cfg (loaded imageE2).din) :=
  ⟨rfl, rfl, by decide +kernel, .inl rfl⟩
theorem witness_DecodeReadsScalarFields : hasDefaults (testCfg false) ∧ hasDefaults (testCfg true) := ⟨rfl, rfl⟩
theorem witness_DecodeReadsArrayFields : hasDefaults boardConfig := rfl

/-- The temporaries at the low and at the high end of every range of rule R170. -/
theorem witness_AmbientCoefficientFormula :
    (∃ t : DecodeTemps, ∃ i : Pixel,
      (∀ pr pc : Fin 2, t.kTa2x2.get pr pc = -128) ∧ t.kTaIncrement.get i = -4 ∧ t.kTaScale2 = 15 ∧ t.kTaScale1 = 8) ∧
    (∃ t : DecodeTemps, ∃ i : Pixel,
      (∀ pr pc : Fin 2, t.kTa2x2.get pr pc = 127) ∧ t.kTaIncrement.get i = 3 ∧ t.kTaScale2 = 0 ∧ t.kTaScale1 = 23) :=
  ⟨⟨{ tempsOf (-4) with kTa2x2 := ⟨-128, -128, -128, -128⟩, kTaScale2 := 15, kTaScale1 := 8 }, 0,
      by decide, by decide +kernel, rfl, rfl⟩,
   ⟨{ tempsOf 3 with kTa2x2 := ⟨127, 127, 127, 127⟩, kTaScale2 := 0, kTaScale1 := 23 }, 767,
      by decide, by decide +kernel, rfl, rfl⟩⟩
/-- The temporaries at the low and at the high end of every range of rule R171. -/
theorem witness_OffsetReferenceFormula :
    (∃ (t : DecodeTemps) (i : Pixel) (r : Fin 24) (c : Fin 32), i.val = 32 * r.val + c.val ∧ t.offsetAvg = -32768 ∧
      t.offsetRow.get r = -8 ∧ t.offsetCol.get c = -8 ∧ t.pixOff.get i = -32 ∧ t.rowScale = 15 ∧ t.colScale = 15 ∧
      t.remScale = 15) ∧
    (∃ (t : DecodeTemps) (i : Pixel) (r : Fin 24) (c : Fin 32), i.val = 32 * r.val + c.val ∧ t.offsetAvg = 32767 ∧
      t.offsetRow.get r = 7 ∧ t.offsetCol.get c = 7 ∧ t.pixOff.get i = 31 ∧ t.rowScale = 0 ∧ t.colScale = 0 ∧
      t.remScale = 0) :=
  ⟨⟨{ tempsOf (-8) with offsetAvg := -32768, pixOff := Cells.ofFn fun _ => -32, rowScale := 15, colScale := 15, remScale := 15 },
      0, 0, 0, rfl, rfl, by decide +kernel, by decide +kernel, by decide +kernel, rfl, rfl, rfl⟩,
   ⟨{ tempsOf 7 with offsetAvg := 32767, pixOff := Cells.ofFn fun _ => 31, rowScale := 0, colScale := 0, remScale := 0 },
      767, 23, 31, rfl, rfl, by decide +kernel, by decide +kernel, by decide +kernel, rfl, rfl, rfl⟩⟩
/-- The temporaries at the low and at the high end of every range of rule R172. -/
theorem witness_SensitivityFormula :
    (∃ (t : DecodeTemps) (i : Pixel) (r : Fin 24) (c : Fin 32), i.val = 32 * r.val + c.val ∧ t.aAvg = 0 ∧
      t.aRow.get r = -8 ∧ t.aCol.get c = -8 ∧ t.alphaRem.get i = -32 ∧ t.aRowScale = 15 ∧ t.aColScale = 15 ∧
      t.aRemScale = 15 ∧ t.aScale = 30) ∧
    (∃ (t : DecodeTemps) (i : Pixel) (r : Fin 24) (c : Fin 32), i.val = 32 * r.val + c.val ∧ t.aAvg = 65535 ∧
      t.aRow.get r = 7 ∧ t.aCol.get c = 7 ∧ t.alphaRem.get i = 31 ∧ t.aRowScale = 0 ∧ t.aColScale = 0 ∧
      t.aRemScale = 0 ∧ t.aScale = 45) :=
  ⟨⟨{ tempsOf (-8) with aAvg := 0, alphaRem := Cells.ofFn fun _ => -32, aRowScale := 15, aColScale := 15, aRemScale := 15,
                        aScale := 30 },
      0, 0, 0, rfl, rfl, by decide +kernel, by decide +kernel, by decide +kernel, rfl, rfl, rfl, rfl⟩,
   ⟨{ tempsOf 7 with aAvg := 65535, alphaRem := Cells.ofFn fun _ => 31, aRowScale := 0, aColScale := 0, aRemScale := 0,
                     aScale := 45 },
      767, 23, 31, rfl, rfl, by decide +kernel, by decide +kernel, by decide +kernel, rfl, rfl, rfl, rfl⟩⟩
/-- One state for each of the three errors; lengths one byte off on either side. -/
theorem witness_DecodeErrorsInOrder :
    (calibrated false imageE2).status.calValid = true ∧
    ((loaded (Memory.zeros 1663)).status.calValid = false ∧ (loaded (Memory.zeros 1663)).din.len ≠ 1664 ∧
      (loaded (Memory.zeros 1665)).din.len ≠ 1664) ∧
    ((loaded imageUnsigned).status.calValid = false ∧ (loaded imageUnsigned).din.len = 1664 ∧
      decodeConfigWf (loaded imageUnsigned).cfg = true ∧
      ¬ signaturesMatch (loaded imageUnsigned).cfg (loaded imageUnsigned).din) :=
  ⟨rfl, ⟨rfl, by decide, by decide⟩, rfl, by decide +kernel, by decide +kernel, loaded_unsigned⟩
theorem witness_SkippedCheckDecodesEveryImage :
    ((loaded imageUnsigned).status.calValid = false ∧ (loaded imageUnsigned).din.len = 1664 ∧
      decodeConfigWf (loaded imageUnsigned).cfg = true) ∧
    ∃ t r, exec (.decode true) (calibrated false imageE2) = .next t ∧ t.resp = some r ∧ r.code ≠ 0#4 :=
  ⟨⟨rfl, by decide +kernel, by decide +kernel⟩, exists_error (by decide +kernel)⟩
/-- Two images that differ in the unread word 0x2400; two that differ in the unread word 0x2435 and agree in what the check
reads. -/
theorem witness_DecodeDependsOnItsWordsOnly :
    let m : Memory := ⟨1664, [(0x20, 0x65), (0x21, 0x9A)]⟩
    let m' : Memory := ⟨1664, [(0, 0x34), (1, 0x12), (0x20, 0x65), (0x21, 0x9A)]⟩
    let n : Memory := ⟨1664, [(0x07, 0x01), (0x13, 0x0D), (0x20, 0x65)]⟩
    let n' : Memory := ⟨1664, [(0x07, 0x01), (0x13, 0x0D), (0x20, 0x65), (0x6A, 0x34), (0x6B, 0x12)]⟩
    (m.len = m'.len ∧ m ≠ m' ∧ ∀ a ∈ decodeAddrs (testCfg false), memRead .ee m a = memRead .ee m' a) ∧
    n.len = n'.len ∧ n ≠ n' ∧ (∀ a ∈ decodeAddrs (testCfg false), memRead .ee n a = memRead .ee n' a) ∧
      (∀ j : Fin 6, n.identityByte ((testCfg false).idOff + j) = n'.identityByte ((testCfg false).idOff + j)) ∧
      (∀ j : Fin 8, n.identityByte ((testCfg false).cfgOff + j) = n'.identityByte ((testCfg false).cfgOff + j)) ∧
      (∀ k : Fin 16, n.word k = n'.word k) := by
  refine ⟨⟨by decide, by decide, by decide +kernel⟩, by decide, by decide, by decide +kernel, by decide +kernel,
    by decide +kernel, by decide +kernel⟩
theorem witness_CommandsIgnoreOldTemporaries :
    isCommand (.sext6 63) = true ∧ ∃ t, exec (.sext6 63) (loaded imageE2) = .next t :=
  ⟨rfl, exists_next (by decide +kernel)⟩
theorem witness_DecodeIsItsRecordWords :
    hasDefaults (loaded imageE2).cfg ∧ (loaded imageE2).status.calValid = false ∧ (loaded imageE2).din.len = 1664 :=
  ⟨rfl, rfl, by decide +kernel⟩

/-- One state for each of the three errors in each mode, one byte off the expected length. -/
theorem witness_CompensateErrorsInOrder :
    (start true []).status.calValid = false ∧
    ((calibrated true (Memory.zeros 1727)).status.calValid = true ∧
      (calibrated true (Memory.zeros 1727)).din.len < 1728 ∧ (calibrated false (Memory.zeros 1663)).din.len < 1664) ∧
    (1728 < (calibrated true (Memory.zeros 1729)).din.len ∧ 1664 < (calibrated false (Memory.zeros 1665)).din.len) := by
  refine ⟨rfl, ⟨rfl, by decide, by decide⟩, by decide, by decide⟩
/-- A plain and an extended frame. -/
theorem witness_CompensateCompletes :
    ((calibrated false frameF2).status.calValid = true ∧
      (calibrated false frameF2).din.len = (if (calibrated false frameF2).mode.extended then 1728 else 1664) ∧
      compensateConfigWf (calibrated false frameF2).cfg = true) ∧
    ((calibrated true (extendedFrame 1)).status.calValid = true ∧
      (calibrated true (extendedFrame 1)).din.len = (if (calibrated true (extendedFrame 1)).mode.extended then 1728 else 1664) ∧
      compensateConfigWf (calibrated true (extendedFrame 1)).cfg = true) :=
  ⟨⟨rfl, by decide +kernel, by decide +kernel⟩, rfl, by decide +kernel, by decide +kernel⟩

theorem witness_CompensateReadsFrameFields : hasDefaults (testCfg true) := rfl

/-- A calibration of one `f64` in every coefficient. -/
def calOf (x : F64) : Cal where
  kVdd := 1
  vdd25 := 1
  aPtat := x
  kVPtat := x
  kTPtat := x
  vPtat25 := 1
  gainEe := 1
  kV := ⟨x, x, x, x⟩
  kTa := Cells.ofFn fun _ => x
  offsetRef := Cells.ofFn fun _ => 50
  aRef := Cells.ofFn fun _ => x

/-- The corner of rule R203 with both signs of zero. -/
theorem witness_PixelFormula :
    F64.isZero (0x8000000000000000 : F64) = true ∧ F64.isZero (0 : F64) = true ∧
      F64.isFinite ((calOf f25).kTa.get 767) = true ∧
      ∀ pr pc : Fin 2, F64.isFinite ((calOf f25).kV.get pr pc) = true := by decide +kernel
/-- One case for each clause of rule R204: a zero `a_ref`; a finite negative radicand and one that is minus infinity; a NaN
upstream. -/
theorem witness_ObjectTemperatureFormula :
    F64.isZero ((calOf 0).aRef.get 5) = true ∧
    (let r := F64.add (F64.div (pixelPix .binary64 (calOf f25) ⟨0, 0, f25, f10⟩ (-20000) 5) ((calOf f25).aRef.get 5)) f10
     F64.isNaN r = false ∧ F64.neg r = true ∧ F64.isZero r = false) ∧
    (let r := F64.add (F64.div (pixelPix .binary64 (calOf 0) ⟨0, 0, f25, f10⟩ (-20000) 5) ((calOf 0).aRef.get 5)) f10
     r = F64.inf true ∧ F64.isNaN r = false ∧ F64.neg r = true ∧ F64.isZero r = false) ∧
    F64.isNaN ((calOf fNaN).aRef.get 5) = true := by decide +kernel
/-- Two extended frames of subpage 0 that differ in the words 0x0701 and 833 and in bits 15 to 1 of the status word, which are not
read, and in pixel 1, which does not pass the gate. -/
theorem witness_CompensateDependsOnItsWordsOnly :
    let m : Memory := ⟨1728, [(1664, 0xFE), (1665, 0xFF)]⟩
    let m' : Memory := ⟨1728, [(2, 0x11), (0x602, 0x78), (0x603, 0x56), (1666, 0x34), (1667, 0x12)]⟩
    m.len = m'.len ∧ m ≠ m' ∧ m.word 1 ≠ m'.word 1 ∧ (m.word 832).toNat % 2 = (m'.word 832).toNat % 2 ∧
      (∀ a ∈ compensateAddrs (testCfg true), memRead .fr m a = memRead .fr m' a) ∧
      (∀ i : Pixel, gate (testCfg true).extended ((m.word 832).toNat % 2) i = true → m.word i = m'.word i) := by
  decide +kernel
theorem witness_CompensateIsItsRecordWords :
    (calibrated true (extendedFrame 0)).status.calValid = true ∧
      (calibrated true (extendedFrame 0)).din.len = (if (calibrated true (extendedFrame 0)).mode.extended then 1728 else 1664) ∧
      compensateConfigWf (calibrated true (extendedFrame 0)).cfg = true ∧
      (calibrated true (extendedFrame 0)).cfg.frm = defaultFrameTable := ⟨rfl, by decide +kernel, by decide +kernel, rfl⟩

/-- V59 and V63: cell 0 no NaN; two cells below the others, then a NaN before the lowest cell. -/
theorem witness_TrackFindsFirstExtremes :
    F64.isNaN ((cellsWith f25 [(5, f20), (9, f20)]).get 0) = false ∧
      F64.isNaN ((cellsWith f25 [(3, fNaN), (4, f10)]).get 0) = false := by decide +kernel
/-- One frame for each clause: all cells equal; a NaN in cell 0; a NaN in another cell only. -/
theorem witness_TrackSpecialFrames :
    (∀ i, (cellsWith f25 []).get i = (cellsWith f25 []).get 0) ∧
    F64.isNaN ((cellsWith f25 [(0, fNaN)]).get 0) = true ∧ F64.isNaN ((cellsWith f25 [(3, fNaN)]).get 0) = false := by
  refine ⟨?_, by decide +kernel, by decide +kernel⟩
  simp [cellsWith]

/-- A state between operations, an image waiting. -/
theorem witness_StepKeepsInvariant :
    (start true [.command 0x19A88000 Memory.empty]).Inv ∧
      ∃ t, step (start true [.command 0x19A88000 Memory.empty]) = .next t := by
  refine ⟨⟨rfl, ?_, rfl, by decide, (fun r h => by cases h), (fun _ => rfl), (fun _ h => by cases h)⟩, exists_next (by decide +kernel)⟩
  intro cw m h
  simp only [start, State.afterReset, List.mem_singleton, Request.command.injEq] at h
  rw [h.2]
  rfl
/-- A committed calibration and a DECODE waiting. -/
theorem witness_CalibrationIsLocked :
    let s := { calibrated false Memory.empty with inbox := [.command 0x28000000 imageE2] }
    s.status.calValid = true ∧ s.resetPending = false ∧ ∃ t, step s = .next t := ⟨rfl, rfl, exists_next (by decide +kernel)⟩
/-- A request that is no reset, in a state with every sticky flag set. -/
theorem witness_OnlyResetClears :
    let s :=
      { calibrated false Memory.empty with
        status := { calValid := true, wTgc := true, eAor := true, lastErr := 0#4 }
        inbox := [.command 0x30000000 Memory.empty] }
    s.resetPending = false ∧ s.status.calValid = true ∧ s.status.wTgc = true ∧ s.status.eAor = true ∧
      ∃ t, step s = .next t := ⟨rfl, rfl, rfl, rfl, exists_next (by decide +kernel)⟩
theorem witness_WritersOfResults :
    (∃ t, exec (.decode true) (loaded (Memory.zeros 3)) = .next t) ∧ (Instr.decode true ≠ .compensate) ∧
      (∃ t, exec .compensate (loaded (Memory.zeros 3)) = .next t) ∧ Instr.compensate ≠ .decode true ∧
      Instr.compensate ≠ .decode false := ⟨exists_next (by decide +kernel), by decide, exists_next (by decide +kernel), by decide, by decide⟩
/-- A COMPENSATE before any DECODE: code 4. -/
theorem witness_ErrorsChangeLastErrOnly :
    isCommand .compensate = true ∧ ∃ t r, exec .compensate (loaded frameF2) = .next t ∧ t.resp = some r ∧ r.code ≠ 0#4 :=
  ⟨rfl, exists_error (by decide +kernel)⟩
/-- A well-formed configuration, and one ill-formed for each operation. -/
theorem witness_StepAnswersUnlessConfigIllFormed :
    configWf (loaded imageE2).cfg = true ∧
    (let s := { loaded imageE2 with cfg := cfgPastWord }
     s.status.calValid = false ∧ s.din.len = 1664 ∧ decodeConfigWf s.cfg = false) ∧
    (let s := { calibrated false frameF2 with cfg := cfgFrameBad }
     s.status.calValid = true ∧ s.din.len = (if s.mode.extended then 1728 else 1664) ∧ compensateConfigWf s.cfg = false) :=
  ⟨by decide +kernel, ⟨rfl, by decide +kernel, by decide +kernel⟩, rfl, by decide +kernel, by decide +kernel⟩
/-- Addresses on both sides of each end of the two ranges, and the status register's. -/
theorem witness_AccessorRanges :
    ([0x0000, 0x03FF, 0x0740, 0x23FF, 0x2740, 0x8000] : List Nat).all outOfRange = true ∧
      ([0x0400, 0x073F, 0x2400, 0x273F] : List Nat).any outOfRange = false ∧ hasDefaults (testCfg true) :=
  ⟨by decide, by decide, rfl⟩

/-- The last byte of a string, at an even and at an odd offset. -/
theorem witness_WordsAreLittleEndian :
    (2 < ([1, 2, 3] : List Byte).length ∧ 3 < ([1, 2, 3, 4] : List Byte).length) ∧
      0x13 < imageSigned.len ∧ 0x07 < imageSigned.len := by decide +kernel

/-- Both ends of the integers, both ends of the exponents. -/
theorem witness_IntegersAndScalesAreExact :
    (2 ^ 53 - 1 : Int).natAbs < 2 ^ 53 ∧ (-(2 ^ 53) + 1 : Int).natAbs < 2 ^ 53 ∧ (0 : Int).natAbs < 2 ^ 53 ∧
      (0 : Int) ≤ 60 ∧ (60 : Int) ≤ 60 := by decide
/-- Operands for each clause of rule R207's special results: the nonzero ones with either sign, finite and infinite. -/
theorem witness_SpecialResults :
    F64.isNaN fNaN = true ∧
      ([f25, F64.inf false, 0xC039000000000000, F64.inf true].all fun x => !F64.isNaN x && !F64.isZero x) = true ∧
      [0xC039000000000000, F64.inf true].all F64.neg = true ∧ [F64.inf false, F64.inf true].all F64.isInf = true ∧
      [0, 0x8000000000000000].all F64.isZero = true ∧ [0, f25, 0x7FEFFFFFFFFFFFFF].all F64.isFinite = true ∧
      F64.neg (F64.inf false) = false ∧ F64.neg (F64.inf false) ≠ F64.neg (F64.inf true) := by decide +kernel

/-- The values of 25.0 and of -0.5. -/
theorem value_f25 : f64Value f25 = some 25 := by
  have h1 : F64.isFinite f25 = true := by decide
  have h2 : F64.neg f25 = false := by decide
  have h3 : F64.mant f25 = 7036874417766400 := by decide
  have h4 : F64.scale f25 = 1027 := by decide
  simp only [f64Value, h1, h2, h3, h4, if_true]
  norm_num
theorem value_minus_half : f64Value 0xBFE0000000000000 = some (-1 / 2) := by
  have h1 : F64.isFinite 0xBFE0000000000000 = true := by decide
  have h2 : F64.neg 0xBFE0000000000000 = true := by decide
  have h3 : F64.mant 0xBFE0000000000000 = 4503599627370496 := by decide
  have h4 : F64.scale 0xBFE0000000000000 = 1022 := by decide
  simp only [f64Value, h1, h2, h3, h4, if_true]
  norm_num
/-- Finite operands, and both infinities with the greatest finite value. -/
theorem witness_ComparisonIsNumeric :
    f64Value f25 = some 25 ∧ f64Value 0xBFE0000000000000 = some (-1 / 2) ∧
      F64.isInf (F64.inf true) = true ∧ F64.isInf (F64.inf false) = true ∧ F64.isFinite 0x7FEFFFFFFFFFFFFF = true :=
  ⟨value_f25, value_minus_half, by decide, by decide, by decide⟩

/-- The value of -0.0. -/
theorem value_minus_zero : f64Value 0x8000000000000000 = some 0 := by
  have h1 : F64.isFinite 0x8000000000000000 = true := by decide
  have h2 : F64.mant 0x8000000000000000 = 0 := by decide
  simp only [f64Value, h1, h2, if_true]
  norm_num
/-- The value of -25.0. -/
theorem value_minus_25 : f64Value 0xC039000000000000 = some (-25) := by
  have h1 : F64.isFinite 0xC039000000000000 = true := by decide
  have h2 : F64.neg 0xC039000000000000 = true := by decide
  have h3 : F64.mant 0xC039000000000000 = 7036874417766400 := by decide
  have h4 : F64.scale 0xC039000000000000 = 1027 := by decide
  simp only [f64Value, h1, h2, h3, h4, if_true]
  norm_num
/-- 25 with -1/2 has four nonzero results; 25 with -25 the sum 0, 25 with itself the difference 0, -0.0 with 25 the others. -/
theorem witness_ArithmeticRoundsExactResultOnce :
    (f64Value f25 = some 25 ∧ f64Value 0xBFE0000000000000 = some (-1 / 2) ∧
      (25 + -1 / 2 : ℚ) ≠ 0 ∧ (25 - -1 / 2 : ℚ) ≠ 0 ∧ (25 * (-1 / 2) : ℚ) ≠ 0 ∧ (25 / (-1 / 2) : ℚ) ≠ 0) ∧
    f64Value 0xC039000000000000 = some (-25) ∧ (25 + -25 : ℚ) = 0 ∧ (25 - 25 : ℚ) = 0 ∧
    f64Value 0x8000000000000000 = some 0 ∧ (0 * 25 : ℚ) = 0 ∧ (25 : ℚ) ≠ 0 :=
  ⟨⟨value_f25, value_minus_half, by norm_num, by norm_num, by norm_num, by norm_num⟩, value_minus_25, by norm_num,
    by norm_num, value_minus_zero, by norm_num, by norm_num⟩
/-- A tie with an even and a tie with an odd lower neighbour; one third, a subnormal tie, the greatest finite value and the
half unit above it. -/
theorem witness_RoundsToNearestEven :
    (0 < 2 ∧ 2 * |(F64.roundHalfEven 1 2 * 2 : Int) - 1| = 2 ∧ 2 * |(F64.roundHalfEven 3 2 * 2 : Int) - 3| = 2) ∧
    (∀ p ∈ ([(1, 3), (1, 2 ^ 1075), (2 ^ 1024 - 2 ^ 970 - 1, 1)] : List (Nat × Nat)),
      0 < p.1 ∧ 0 < p.2 ∧ F64.isFinite (F64.ofRat true p.1 p.2) = true) ∧
    0 < 2 ^ 1024 - 2 ^ 970 ∧ F64.isFinite (F64.ofRat true (2 ^ 1024 - 2 ^ 970) 1) = false := by
  refine ⟨by decide, by decide +kernel, by decide +kernel, by decide +kernel⟩

end Sys2Proof.Machine
end

section
/-! The words and the bytes of a byte string (20_memory.md rules R53, R54). -/

namespace Sys2Proof

/-- The two halves do not overlap, so the pattern joined from them is their base-256 number. -/
theorem toNat_join88 (l h : BitVec 8) : (join88 l h).toNat = l.toNat + 256 * h.toNat := by
  have hl : l.toNat < 2 ^ 8 := l.isLt
  have hh : h.toNat < 2 ^ 8 := h.isLt
  have hor : h.toNat <<< 8 ||| l.toNat = h.toNat <<< 8 + l.toNat := (Nat.shiftLeft_add_eq_or_of_lt hl _).symm
  simp (disch := omega) only [join88, placed, BitVec.toNat_or, BitVec.toNat_shiftLeft, BitVec.toNat_setWidth,
    Nat.shiftLeft_zero, Nat.mod_eq_of_lt, hor]
  omega

namespace Machine

theorem Memory.word_eq_join88 (m : Memory) (k : Nat) : m.word k = join88 (m.byte (2 * k)) (m.byte (2 * k + 1)) := rfl

theorem Memory.toNat_word (m : Memory) (k : Nat) :
    (m.word k).toNat = (m.byte (2 * k)).toNat + 256 * (m.byte (2 * k + 1)).toNat := by
  rw [Memory.word_eq_join88, toNat_join88]

@[simp] theorem Memory.ofBytes_len (bs : List Byte) : (Memory.ofBytes bs).len = bs.length := rfl

theorem Memory.identityByte_of_lt {m : Memory} {j : Nat} (hj : j < m.len) : m.identityByte j = m.byte j :=
  if_pos hj

/-- The byte view and the word view agree: an even offset is the low half of its word, an odd one the high half. -/
theorem Memory.toNat_byte (m : Memory) (j : Nat) :
    (m.byte j).toNat = if j % 2 = 0 then (m.word (j / 2)).toNat % 256 else (m.word (j / 2)).toNat / 256 := by
  have hlow : (m.byte (2 * (j / 2))).toNat < 256 := (m.byte _).isLt
  rw [Memory.toNat_word]
  split
  next =>
    have hj : 2 * (j / 2) = j := by omega
    rw [hj] at hlow ⊢
    omega
  next =>
    have hj : 2 * (j / 2) + 1 = j := by omega
    rw [hj]
    omega

/-- Settles O54: a word joins its two bytes, the bytes of a list are its elements, and the identity check reads a byte of
the string at every offset inside it. -/
theorem wordsAreLittleEndian : Obligations.WordsAreLittleEndian := by
  refine ⟨fun bs k => ?_, fun bs j hj => ?_, fun m j hj => ?_⟩
  · rw [Memory.toNat_word, Memory.byte_ofBytes, Memory.byte_ofBytes]
  · rw [Memory.identityByte_of_lt hj, Memory.byte_ofBytes]
  · rw [Memory.identityByte_of_lt hj, Memory.toNat_byte]

end Machine
end Sys2Proof
end

section
/-! What EXTRACT and SEXT6 answer (40_extract.md rules R121, R123, R124). -/

namespace Sys2Proof.Machine

theorem exec_extract (signed : Bool) (width : BitVec 5) (start : BitVec 4) (word : Word) (s : State) :
    exec (.extract signed width start word) s = .next (extractCommand signed width.toNat start.toNat word s) := rfl

theorem exec_sext6 (v : BitVec 6) (s : State) :
    exec (.sext6 v) s = .next (extractCommand true 6 0 (v.setWidth 16) s) := rfl

theorem extractCommand_of_legalSlice {start width : Nat} (h : legalSlice start width = true) (signed : Bool) (word : Word)
    (s : State) :
    extractCommand signed width start word s = answered s 0#4 (extractBits word start width signed) zeroWords := by
  rw [extractCommand, if_pos h, finish_eq_answered]

theorem extractCommand_of_not_legalSlice {start width : Nat} (h : legalSlice start width = false) (signed : Bool)
    (word : Word) (s : State) :
    extractCommand signed width start word s = answered s 7#4 0#32 zeroWords := by
  rw [extractCommand, if_neg (Bool.eq_false_iff.1 h)]
  exact raise_eq_answered s .illegalOperand noDiag

/-- The answer of an EXTRACT inside the domain, its value by integer division. -/
theorem extractCommand_answers_fieldInt {start width : Nat} (h : legalSlice start width = true) (signed : Bool)
    (word : Word) (s : State) :
    ∃ v : I32, v.toInt = fieldInt word start width signed ∧
      extractCommand signed width start word s = answered s 0#4 v zeroWords :=
  ⟨extractBits word start width signed, extractInt_eq_fieldInt h word signed, extractCommand_of_legalSlice h signed word s⟩

/-- The field of SEXT6 is the whole pattern, and its sign bit has the weight 32. -/
theorem fieldInt_sext6 (v : BitVec 6) :
    fieldInt (v.setWidth 16) 0 6 true = if v.toNat ≤ 31 then (v.toNat : Int) else (v.toNat : Int) - 64 := by
  have hv : v.toNat < 64 := v.isLt
  have hfield : (v.setWidth 16).toNat / 2 ^ 0 % 2 ^ 6 = v.toNat := by
    rw [BitVec.toNat_setWidth]
    omega
  simp only [fieldInt, hfield, true_and]
  by_cases hpos : v.toNat ≤ 31
  · rw [if_pos hpos, if_neg (by omega)]
  · rw [if_neg hpos, if_pos (by omega)]
    norm_num

/-- Settles O9: the domain of EXTRACT is the operands with `1 ≤ width` and `start + width ≤ 16`, and each side of it has
one answer. -/
theorem extractAnswersField : Obligations.ExtractAnswersField := by
  intro signed width start word s
  refine ⟨fun hwidth hend => ?_, fun hout => ?_⟩
  · have hlegal := (legalSlice_iff start.toNat width.toNat).2 ⟨hwidth, hend⟩
    obtain ⟨v, hv, hexec⟩ := extractCommand_answers_fieldInt hlegal signed word s
    exact ⟨v, hv, by rw [exec_extract, hexec]⟩
  · have hillegal : legalSlice start.toNat width.toNat = false := by
      rw [Bool.eq_false_iff, Ne, legalSlice_iff]
      omega
    rw [exec_extract, extractCommand_of_not_legalSlice hillegal]

/-- Settles O11: SEXT6 is the EXTRACT of the signed bits 5 to 0, always in the domain. -/
theorem sext6AnswersSignedValue : Obligations.Sext6AnswersSignedValue := by
  intro v s
  have hlegal : legalSlice 0 6 = true := by decide
  obtain ⟨r, hr, hexec⟩ := extractCommand_answers_fieldInt hlegal true (v.setWidth 16) s
  exact ⟨r, hr.trans (fieldInt_sext6 v), by rw [exec_sext6, hexec]⟩

end Sys2Proof.Machine
end

section
/-! The default `NUMERICS` on values (00_scope.md rule R11, 41_decode.md rule R177, 92_eei_decisions.md D16): a result that is a
binary64 number is that number, because its one rounding does nothing. -/

namespace Sys2Proof.Machine

/-! ### The parts of a pattern and its value -/

/-- The number that a sign bit stands for. -/
def signOf (neg : Bool) : ℚ := if neg then -1 else 1

theorem abs_signOf (neg : Bool) : |signOf neg| = 1 := by
  cases neg <;> simp [signOf]

theorem signOf_decide_mul_abs (a : ℚ) : signOf (decide (a < 0)) * |a| = a := by
  by_cases h : a < 0
  · simp [signOf, h, abs_of_neg h]
  · simp [signOf, h, abs_of_nonneg (not_lt.1 h)]

theorem signOf_xor (p q : Bool) : signOf (p != q) = signOf p / signOf q := by
  cases p <;> cases q <;> norm_num [signOf]

/-- The magnitude of a finite value. -/
def magOf (x : F64) : ℚ := (F64.mant x : ℚ) * (2 : ℚ) ^ ((F64.scale x : ℤ) - 1075)

theorem f64Value_eq_some {x : F64} {a : ℚ} :
    f64Value x = some a ↔ F64.isFinite x = true ∧ signOf (F64.neg x) * magOf x = a := by
  unfold f64Value signOf magOf
  split
  next h => simp [h]
  next h => simp [h]

theorem mant_eq_zero_of_isZero {x : F64} (h : F64.isZero x = true) : F64.mant x = 0 := by
  unfold F64.isZero at h
  rw [decide_eq_true_iff] at h
  unfold F64.mant F64.expField F64.frac
  rw [if_pos] <;> omega

theorem mant_pos_of_not_isZero {x : F64} (h : F64.isZero x = false) : 0 < F64.mant x := by
  unfold F64.isZero at h
  rw [decide_eq_false_iff_not] at h
  unfold F64.mant F64.expField F64.frac
  split <;> omega

theorem magOf_of_isZero {x : F64} (h : F64.isZero x = true) : magOf x = 0 := by
  rw [magOf, mant_eq_zero_of_isZero h, Nat.cast_zero, zero_mul]

theorem f64Value_of_isZero {x : F64} (h : F64.isZero x = true) : f64Value x = some 0 := by
  have hfin : F64.isFinite x = true := by
    unfold F64.isZero at h
    rw [decide_eq_true_iff] at h
    rw [F64.isFinite, decide_eq_true_iff, F64.expField]
    omega
  rw [f64Value_eq_some]
  exact ⟨hfin, by rw [magOf_of_isZero h, mul_zero]⟩

theorem f64Value_zero (neg : Bool) : f64Value (F64.zero neg) = some 0 :=
  f64Value_of_isZero (by cases neg <;> decide)

/-! ### The fields of a packed pattern -/

theorem toNat_pack (neg : Bool) {mag : ℕ} (h : mag < 2 ^ 63) :
    (F64.pack neg mag).toNat = (if neg then 2 ^ 63 else 0) + mag := by
  rw [F64.pack, BitVec.toNat_ofNat, Nat.mod_eq_of_lt]
  split <;> omega

theorem neg_pack (neg : Bool) {mag : ℕ} (h : mag < 2 ^ 63) : F64.neg (F64.pack neg mag) = neg := by
  rw [F64.neg, toNat_pack neg h]
  cases neg
  · rw [if_neg Bool.false_ne_true, decide_eq_false_iff_not]
    omega
  · rw [if_pos rfl, decide_eq_true_iff]
    omega

theorem expField_pack (neg : Bool) {mag : ℕ} (h : mag < 2 ^ 63) : F64.expField (F64.pack neg mag) = mag / 2 ^ 52 := by
  rw [F64.expField, toNat_pack neg h]
  split <;> omega

theorem frac_pack (neg : Bool) {mag : ℕ} (h : mag < 2 ^ 63) : F64.frac (F64.pack neg mag) = mag % 2 ^ 52 := by
  rw [F64.frac, toNat_pack neg h]
  split <;> omega

/-- The value packed from a significand `M` at the scale `2 ^ (p - 1074)`: with 53 significant bits, or subnormal. -/
theorem f64Value_pack (neg : Bool) {p M : ℕ} (hM : M < 2 ^ 53) (hnormal : p = 0 ∨ 2 ^ 52 ≤ M) (hp : p ≤ 2045) :
    f64Value (F64.pack neg (p * 2 ^ 52 + M)) = some (signOf neg * (M * (2 : ℚ) ^ ((p : ℤ) - 1074))) := by
  have hlt : p * 2 ^ 52 + M < 2 ^ 63 := by omega
  have hfin : F64.isFinite (F64.pack neg (p * 2 ^ 52 + M)) = true := by
    rw [F64.isFinite, expField_pack neg hlt, decide_eq_true_iff]
    omega
  have hmant : F64.mant (F64.pack neg (p * 2 ^ 52 + M)) = M := by
    rw [F64.mant, expField_pack neg hlt, frac_pack neg hlt]
    split <;> omega
  have hscale : F64.scale (F64.pack neg (p * 2 ^ 52 + M)) = p + 1 := by
    rw [F64.scale, expField_pack neg hlt]
    omega
  rw [f64Value_eq_some, neg_pack neg hlt, magOf, hmant, hscale]
  refine ⟨hfin, ?_⟩
  congr 3
  push_cast
  ring

/-! ### The one rounding -/

theorem roundHalfEven_mul (k : ℕ) {d : ℕ} (hd : 0 < d) : F64.roundHalfEven (k * d) d = k := by
  simp only [F64.roundHalfEven, Nat.mul_mod_left, Nat.mul_div_cancel k hd]
  rw [if_neg (by omega), if_neg (by omega)]

/-- Scaling a ratio by a power of two, in naturals. -/
theorem scaled_ratio (n d : ℕ) (e : ℤ) :
    ((n * 2 ^ e.toNat : ℕ) : ℚ) / ((d * 2 ^ (-e).toNat : ℕ) : ℚ) = (n : ℚ) / d * (2 : ℚ) ^ e := by
  obtain ⟨k, rfl | rfl⟩ := e.eq_nat_or_neg
  · simp [mul_div_right_comm]
  · simp [div_eq_mul_inv, mul_assoc, mul_comm]

/-- The comparison that `ratLog2` makes in naturals. -/
theorem two_zpow_le_iff (n : ℕ) {d : ℕ} (hd : 0 < d) (l : ℤ) :
    (if 0 ≤ l then decide (d * 2 ^ l.toNat ≤ n) else decide (d ≤ n * 2 ^ (-l).toNat)) = true ↔
      (2 : ℚ) ^ l ≤ (n : ℚ) / d := by
  have hd' : (0 : ℚ) < d := by exact_mod_cast hd
  rw [le_div_iff₀ hd']
  obtain ⟨k, rfl | rfl⟩ := l.eq_nat_or_neg
  · rw [if_pos (by omega), decide_eq_true_iff, zpow_natCast, Int.toNat_natCast, mul_comm d]
    exact_mod_cast Iff.rfl
  · obtain rfl | hk := Nat.eq_zero_or_pos k
    · simp
    · rw [if_neg (by omega), decide_eq_true_iff, neg_neg, Int.toNat_natCast, zpow_neg, zpow_natCast,
        inv_mul_le_iff₀ (by positivity), mul_comm n]
      exact_mod_cast Iff.rfl

/-- The difference of the binary logarithms is the binary exponent of the ratio, or one above it. -/
theorem ratio_range_of_log2 {n d : ℕ} (hn : 0 < n) (hd : 0 < d) :
    (2 : ℚ) ^ ((n.log2 : ℤ) - d.log2 - 1) ≤ (n : ℚ) / d ∧ (n : ℚ) / d < (2 : ℚ) ^ ((n.log2 : ℤ) - d.log2 + 1) := by
  have hd' : (0 : ℚ) < d := by exact_mod_cast hd
  have hnlo : ((2 : ℚ) ^ (n.log2 : ℤ)) ≤ n := by exact_mod_cast Nat.log2_self_le hn.ne'
  have hnhi : (n : ℚ) < (2 : ℚ) ^ ((n.log2 : ℤ) + 1) := by exact_mod_cast Nat.lt_log2_self
  have hdlo : ((2 : ℚ) ^ (d.log2 : ℤ)) ≤ d := by exact_mod_cast Nat.log2_self_le hd.ne'
  have hdhi : (d : ℚ) ≤ (2 : ℚ) ^ ((d.log2 : ℤ) + 1) := by exact_mod_cast Nat.lt_log2_self.le
  rw [le_div_iff₀ hd', div_lt_iff₀ hd']
  constructor
  · calc (2 : ℚ) ^ ((n.log2 : ℤ) - d.log2 - 1) * d
        ≤ (2 : ℚ) ^ ((n.log2 : ℤ) - d.log2 - 1) * (2 : ℚ) ^ ((d.log2 : ℤ) + 1) := by gcongr
      _ = (2 : ℚ) ^ (n.log2 : ℤ) := by rw [← zpow_add₀ two_ne_zero]; congr 1; ring
      _ ≤ n := hnlo
  · calc (n : ℚ) < (2 : ℚ) ^ ((n.log2 : ℤ) + 1) := hnhi
      _ = (2 : ℚ) ^ ((n.log2 : ℤ) - d.log2 + 1) * (2 : ℚ) ^ (d.log2 : ℤ) := by
        rw [← zpow_add₀ two_ne_zero]; congr 1; ring
      _ ≤ (2 : ℚ) ^ ((n.log2 : ℤ) - d.log2 + 1) * d := by gcongr

/-- `ratLog2` is the binary exponent of the ratio. -/
theorem ratLog2_spec {n d : ℕ} (hn : 0 < n) (hd : 0 < d) :
    (2 : ℚ) ^ F64.ratLog2 n d ≤ (n : ℚ) / d ∧ (n : ℚ) / d < (2 : ℚ) ^ (F64.ratLog2 n d + 1) := by
  obtain ⟨hlo, hhi⟩ := ratio_range_of_log2 hn hd
  have hdef : F64.ratLog2 n d = if (2 : ℚ) ^ ((n.log2 : ℤ) - d.log2) ≤ (n : ℚ) / d then (n.log2 : ℤ) - d.log2
      else (n.log2 : ℤ) - d.log2 - 1 := by
    simp only [F64.ratLog2, two_zpow_le_iff n hd]
  rw [hdef]
  split
  next h => exact ⟨h, hhi⟩
  next h =>
    rw [sub_add_cancel]
    exact ⟨hlo, not_le.1 h⟩

/-- The number is an integer of at most 53 bits times a power of two in the exponent range of binary64. -/
def Representable (a : ℚ) : Prop :=
  ∃ (m : ℕ) (e : ℤ), |a| = m * (2 : ℚ) ^ e ∧ m < 2 ^ 53 ∧ -1074 ≤ e ∧ e ≤ 971

theorem representable_signOf_mul (neg : Bool) (a : ℚ) : Representable (signOf neg * a) ↔ Representable a := by
  rw [Representable, Representable, abs_mul, abs_signOf, one_mul]

/-- A representable number is an integer at the scale `2 ^ (p - 1074)` that `ofRat` rounds at. -/
theorem exists_significand {n d m : ℕ} {e : ℤ} (hn : 0 < n) (hd : 0 < d) (h : (n : ℚ) / d = m * (2 : ℚ) ^ e)
    (hm : m < 2 ^ 53) (hlo : -1074 ≤ e) (hhi : e ≤ 971) :
    ∃ M p : ℕ, (n : ℚ) / d = M * (2 : ℚ) ^ ((p : ℤ) - 1074) ∧ max (F64.ratLog2 n d - 52) (-1074) = (p : ℤ) - 1074 ∧
      M < 2 ^ 53 ∧ (p = 0 ∨ 2 ^ 52 ≤ M) ∧ p ≤ 2045 := by
  obtain ⟨hl, hr⟩ := ratLog2_spec hn hd
  generalize F64.ratLog2 n d = l at hl hr
  have htwo : (1 : ℚ) < 2 := one_lt_two
  have hle : l < 53 + e := by
    rw [← zpow_lt_zpow_iff_right₀ htwo, zpow_add₀ two_ne_zero]
    refine (hl.trans_eq h).trans_lt ?_
    gcongr
    exact_mod_cast hm
  obtain ⟨p, hp⟩ : ∃ p : ℕ, max (l - 52) (-1074) = (p : ℤ) - 1074 :=
    ⟨(max (l - 52) (-1074) + 1074).toNat, by omega⟩
  obtain ⟨k, hk⟩ : ∃ k : ℕ, e = k + ((p : ℤ) - 1074) := ⟨(e - ((p : ℤ) - 1074)).toNat, by omega⟩
  have hM : (n : ℚ) / d = (m * 2 ^ k : ℕ) * (2 : ℚ) ^ ((p : ℤ) - 1074) := by
    rw [h, hk, zpow_add₀ two_ne_zero]
    push_cast
    rw [zpow_natCast, mul_assoc]
  generalize m * 2 ^ k = M at hM
  refine ⟨M, p, hM, hp, ?_, ?_, by omega⟩
  · have : (M : ℚ) * (2 : ℚ) ^ ((p : ℤ) - 1074) < 2 ^ 53 * (2 : ℚ) ^ ((p : ℤ) - 1074) := by
      rw [← hM]
      refine hr.trans_le ?_
      rw [← zpow_natCast (2 : ℚ) 53, ← zpow_add₀ two_ne_zero]
      exact zpow_le_zpow_right₀ htwo.le (by push_cast; omega)
    exact_mod_cast lt_of_mul_lt_mul_right this (by positivity)
  · refine or_iff_not_imp_left.2 fun hp0 => ?_
    have : 2 ^ 52 * (2 : ℚ) ^ ((p : ℤ) - 1074) ≤ (M : ℚ) * (2 : ℚ) ^ ((p : ℤ) - 1074) := by
      rw [← hM]
      refine le_trans (le_of_eq ?_) hl
      rw [← zpow_natCast (2 : ℚ) 52, ← zpow_add₀ two_ne_zero]
      congr 1
      push_cast
      omega
    exact_mod_cast le_of_mul_le_mul_right this (by positivity)

/-- Rounding a representable number gives that number. -/
theorem f64Value_ofRat (neg : Bool) {n d : ℕ} (hn : 0 < n) (hd : 0 < d) (h : Representable ((n : ℚ) / d)) :
    f64Value (F64.ofRat neg n d) = some (signOf neg * ((n : ℚ) / d)) := by
  obtain ⟨m, e, hme, hm, hlo, hhi⟩ := h
  rw [abs_of_nonneg (by positivity)] at hme
  obtain ⟨M, p, hM, hq, hM53, hnormal, hp⟩ := exists_significand hn hd hme hm hlo hhi
  have hd' : 0 < d * 2 ^ ((p : ℤ) - 1074).toNat := by positivity
  have hround : n * 2 ^ (-((p : ℤ) - 1074)).toNat = M * (d * 2 ^ ((p : ℤ) - 1074).toNat) := by
    have hscaled := scaled_ratio n d (-((p : ℤ) - 1074))
    rw [neg_neg, hM, mul_assoc, ← zpow_add₀ two_ne_zero, add_neg_cancel, zpow_zero, mul_one,
      div_eq_iff (by exact_mod_cast hd'.ne')] at hscaled
    exact_mod_cast hscaled
  have hmin : min ((((p : ℤ) - 1074) + 1074).toNat * 2 ^ 52 + M) (2047 * 2 ^ 52) = p * 2 ^ 52 + M := by
    rw [sub_add_cancel, Int.toNat_natCast]
    exact min_eq_left (by omega)
  simp only [F64.ofRat, hq, hround, roundHalfEven_mul M hd', hmin]
  rw [f64Value_pack neg hM53 hnormal hp, hM]

theorem f64Value_ofScaled (neg : Bool) {n d : ℕ} (hn : 0 < n) (hd : 0 < d) {e : ℤ}
    (h : Representable ((n : ℚ) / d * (2 : ℚ) ^ e)) :
    f64Value (F64.ofScaled neg n d e) = some (signOf neg * ((n : ℚ) / d * (2 : ℚ) ^ e)) := by
  rw [← scaled_ratio n d e] at h ⊢
  exact f64Value_ofRat neg (by positivity) (by positivity) h

/-! ### Integers, powers of two, quotients -/

theorem representable_int_div_two_pow {n : ℤ} (hn : n.natAbs < 2 ^ 53) {k : ℕ} (hk : k ≤ 1074) :
    Representable ((n : ℚ) / 2 ^ k) := by
  refine ⟨n.natAbs, -k, ?_, hn, by omega, by omega⟩
  rw [abs_div, abs_of_nonneg (show (0 : ℚ) ≤ 2 ^ k by positivity), zpow_neg, zpow_natCast, Nat.cast_natAbs,
    Int.cast_abs]
  rfl

theorem representable_two_pow {k : ℕ} (hk : k ≤ 971) : Representable ((2 : ℚ) ^ k) :=
  ⟨1, k, by rw [abs_of_nonneg (by positivity)]; simp, by norm_num, by omega, by omega⟩

/-- The conversion of an integer below `2 ^ 53` in magnitude is exact (00_scope.md rule R11). -/
theorem f64Value_ofInt {n : ℤ} (hn : n.natAbs < 2 ^ 53) : f64Value (F64.ofInt n) = some (n : ℚ) := by
  unfold F64.ofInt
  split
  next h => rw [f64Value_zero, h, Int.cast_zero]
  next h =>
    have habs : ((n.natAbs : ℕ) : ℚ) / (1 : ℕ) = |(n : ℚ)| := by
      rw [Nat.cast_natAbs, Int.cast_abs, Nat.cast_one, div_one]
    have hrep : Representable |(n : ℚ)| := by
      simpa [Representable] using representable_int_div_two_pow hn (Nat.zero_le 1074)
    rw [f64Value_ofRat _ (by omega) one_pos (habs ▸ hrep), habs]
    have hsign : decide (n < 0) = decide ((n : ℚ) < 0) := by simp
    rw [hsign, signOf_decide_mul_abs]

theorem f64Value_lit_two_pow {k : ℕ} (hk : k ≤ 971) : f64Value (F64.lit (2 ^ k) 1) = some (2 ^ k) := by
  have hcast : ((2 ^ k : ℕ) : ℚ) / (1 : ℕ) = 2 ^ k := by push_cast; rw [div_one]
  rw [F64.lit, f64Value_ofRat false (by positivity) one_pos (hcast ▸ representable_two_pow hk), hcast]
  simp [signOf]

/-- `2 ^ n` in an `f64` context (00_scope.md rule R11). -/
theorem pow2_eq_lit {k : ℤ} (h0 : 0 ≤ k) (h60 : k ≤ 60) : F64.pow2 k = F64.lit (2 ^ k.toNat) 1 := by
  rw [F64.pow2, if_pos ⟨h0, h60⟩, F64.lit]

theorem div_of_isZero {x y : F64} (hx : F64.isZero x = true) (hyfin : F64.isFinite y = true) (hy : F64.isZero y = false) :
    F64.div x y = F64.zero (F64.neg x != F64.neg y) := by
  obtain ⟨hxnan, hxinf⟩ := F64.not_nan_of_isZero hx
  obtain ⟨hynan, hyinf⟩ := F64.not_nan_of_isFinite hyfin
  simp [F64.div, hxnan, hxinf, hynan, hyinf, hx, hy]

theorem div_of_not_isZero {x y : F64} (hxfin : F64.isFinite x = true) (hx : F64.isZero x = false)
    (hyfin : F64.isFinite y = true) (hy : F64.isZero y = false) :
    F64.div x y =
      F64.ofScaled (F64.neg x != F64.neg y) (F64.mant x) (F64.mant y) ((F64.scale x : ℤ) - (F64.scale y : ℤ)) := by
  obtain ⟨hxnan, hxinf⟩ := F64.not_nan_of_isFinite hxfin
  obtain ⟨hynan, hyinf⟩ := F64.not_nan_of_isFinite hyfin
  simp [F64.div, hxnan, hxinf, hynan, hyinf, hx, hy]

/-- A quotient that is representable is exact. -/
theorem f64Value_div {x y : F64} {a b : ℚ} (hx : f64Value x = some a) (hy : f64Value y = some b) (hb : b ≠ 0)
    (hrep : Representable (a / b)) : f64Value (F64.div x y) = some (a / b) := by
  obtain ⟨hxfin, rfl⟩ := f64Value_eq_some.1 hx
  obtain ⟨hyfin, rfl⟩ := f64Value_eq_some.1 hy
  have hyzero : F64.isZero y = false := Bool.eq_false_iff.2 fun h => hb (by rw [magOf_of_isZero h, mul_zero])
  cases hxzero : F64.isZero x with
  | true => rw [div_of_isZero hxzero hyfin hyzero, f64Value_zero, magOf_of_isZero hxzero, mul_zero, zero_div]
  | false =>
    have hquot : signOf (F64.neg x) * magOf x / (signOf (F64.neg y) * magOf y) =
        signOf (F64.neg x != F64.neg y) * (magOf x / magOf y) := by
      rw [signOf_xor, mul_div_mul_comm]
    have hmag : (F64.mant x : ℚ) / F64.mant y * (2 : ℚ) ^ ((F64.scale x : ℤ) - F64.scale y) = magOf x / magOf y := by
      rw [magOf, magOf, mul_div_mul_comm, ← zpow_sub₀ two_ne_zero, sub_sub_sub_cancel_right]
    rw [hquot, representable_signOf_mul, ← hmag] at hrep
    rw [div_of_not_isZero hxfin hxzero hyfin hyzero, hquot, ← hmag]
    exact f64Value_ofScaled _ (mant_pos_of_not_isZero hxzero) (mant_pos_of_not_isZero hyzero) hrep

/-- Division of an integer by a power of two is exact (41_decode.md rule R177). -/
theorem f64Value_div_lit_two_pow {n : ℤ} {k : ℕ} (hn : n.natAbs < 2 ^ 53) (hk : k ≤ 971) :
    f64Value (F64.div (F64.ofInt n) (F64.lit (2 ^ k) 1)) = some ((n : ℚ) / 2 ^ k) :=
  f64Value_div (f64Value_ofInt hn) (f64Value_lit_two_pow hk) (by positivity)
    (representable_int_div_two_pow hn (by omega))

theorem f64Value_div_pow2 {n k : ℤ} (hn : n.natAbs < 2 ^ 53) (h0 : 0 ≤ k) (h60 : k ≤ 60) :
    f64Value (F64.div (F64.ofInt n) (F64.pow2 k)) = some ((n : ℚ) / 2 ^ k.toNat) := by
  rw [pow2_eq_lit h0 h60]
  exact f64Value_div_lit_two_pow hn (by omega)

end Sys2Proof.Machine
end

section
/-! DECODE: what it answers, and the calibration it commits (41_decode.md). -/

namespace Sys2Proof.Machine

/-! ### The tests of DECODE -/

theorem exec_decode (skip : Bool) (s : State) : exec (.decode skip) s = execDecode skip s := rfl

theorem identityOk_iff (c : Config) (m : Memory) : identityOk c m = true ↔ signaturesMatch c m := by
  simp [identityOk, signaturesMatch]

theorem decodeEarlyError_eq_none {s : State} (hvalid : s.status.calValid = false) (hlen : s.din.len = 1664) :
    decodeEarlyError s = none := by
  simp [decodeEarlyError, hvalid, hlen, eeBytes]

theorem decodeError_skip (s : State) : decodeError true s = decodeEarlyError s := by
  unfold decodeError
  cases decodeEarlyError s <;> rfl

theorem decodeEarlyError_ne_identityMismatch (s : State) : decodeEarlyError s ≠ some .identityMismatch := by
  unfold decodeEarlyError
  split
  · decide
  · split <;> decide

/-- A DECODE that passes its tests commits (41_decode.md rule R140). -/
theorem exec_decode_of_passes {skip : Bool} {s : State} (hvalid : s.status.calValid = false) (hlen : s.din.len = 1664)
    (hwf : decodeConfigWf s.cfg = true) (hident : skip = true ∨ signaturesMatch s.cfg s.din) :
    exec (.decode skip) s = .next s.runDecode := by
  have hearly := decodeEarlyError_eq_none hvalid hlen
  have herror : decodeError skip s = none := by
    obtain rfl | hsig := hident
    · rw [decodeError_skip, hearly]
    · simp [decodeError, hearly, (identityOk_iff s.cfg s.din).2 hsig]
  simp [exec_decode, execDecode, hearly, hwf, herror]

theorem ErrCode.bits_eq_two {e : ErrCode} (h : e.bits = 2#4) : e = .identityMismatch := by
  revert h
  cases e <;> decide

/-- With the check skipped no response has the code of `IdentityMismatch` (41_decode.md rule R145). -/
theorem decode_skip_code_ne_identityMismatch {s t : State} {r : Response} (hexec : exec (.decode true) s = .next t)
    (hresp : t.resp = some r) : r.code ≠ 2#4 := by
  rw [exec_decode] at hexec
  obtain ⟨e, herror, -, hraise⟩ | ⟨-, -, hrefused⟩ | ⟨-, -, hrun⟩ := execDecode_cases true s
  · obtain rfl : s.raise e (decodeDiag s e) = t := by simpa [hraise] using hexec
    obtain rfl : _ = r := by simpa using hresp
    intro hcode
    rw [decodeError_skip, ErrCode.bits_eq_two hcode] at herror
    exact decodeEarlyError_ne_identityMismatch s herror
  · simp [hrefused] at hexec
  · obtain rfl : s.runDecode = t := by simpa [hrun] using hexec
    obtain rfl : _ = r := by simpa using hresp
    exact (by decide : (0#4 : BitVec 4) ≠ 2#4)

/-- No row, no map and no formula of DECODE reads the signatures (41_decode.md rule R145). -/
theorem runDecode_with_signatures (s : State) (idSig : Cells 6 Byte) (cfgSig : Cells 8 Byte) :
    State.runDecode { s with cfg := { s.cfg with idSig := idSig, cfgSig := cfgSig } } =
      { s.runDecode with cfg := { s.cfg with idSig := idSig, cfgSig := cfgSig } } := rfl

/-- Settles O31: the signatures stand in no test of DECODE skip and in no row, so the state they are changed in runs the same
DECODE. -/
theorem skippedCheckDecodesEveryImage : Obligations.SkippedCheckDecodesEveryImage := by
  refine ⟨fun s idSig cfgSig hvalid hlen hwf => ?_, fun s t r => decode_skip_code_ne_identityMismatch⟩
  refine ⟨s.runDecode, exec_decode_of_passes hvalid hlen hwf (.inl rfl), ?_, ?_⟩
  · rw [State.runDecode_status]
  · rw [← runDecode_with_signatures]
    exact exec_decode_of_passes hvalid hlen hwf (.inl rfl)

/-! ### The default configuration -/

theorem decodeConfigWf_defaultConfig (ext : Bool) (idSig : Cells 6 Byte) (cfgSig : Cells 8 Byte) :
    decodeConfigWf (defaultConfig ext idSig cfgSig) = true := by
  have h : decodeConfigWf boardConfig = true := by decide +kernel
  exact h

section
variable {c : Config} (h : hasDefaults c)
include h

theorem hasDefaults.decodeConfigWf_eq : decodeConfigWf c = true :=
  (congrArg decodeConfigWf h).trans (decodeConfigWf_defaultConfig _ _ _)

theorem hasDefaults.numerics_eq : c.numerics = .binary64 := congrArg Config.numerics h

theorem hasDefaults.ft_eq : c.ft = defaultFieldTable := congrArg Config.ft h

end

/-! ### The range of a sub-field (40_extract.md rule R122) -/

theorem fieldInt_unsigned_range (w : Word) (start width : ℕ) :
    0 ≤ fieldInt w start width false ∧ fieldInt w start width false < 2 ^ width := by
  have hlt : w.toNat / 2 ^ start % 2 ^ width < 2 ^ width := Nat.mod_lt _ (by positivity)
  rw [fieldInt, if_neg (by simp)]
  exact ⟨by positivity, by exact_mod_cast hlt⟩

theorem fieldInt_signed_range (w : Word) (start : ℕ) {width : ℕ} (hwidth : 0 < width) :
    -2 ^ (width - 1) ≤ fieldInt w start width true ∧ fieldInt w start width true < 2 ^ (width - 1) := by
  have hlt : w.toNat / 2 ^ start % 2 ^ width < 2 ^ width := Nat.mod_lt _ (by positivity)
  have hhalf : 2 ^ width = 2 * 2 ^ (width - 1) := by rw [← pow_succ', Nat.sub_add_cancel hwidth]
  have hhalfInt : (2 : ℤ) ^ width = 2 * 2 ^ (width - 1) := by exact_mod_cast hhalf
  have hcast : (2 : ℤ) ^ (width - 1) = ((2 ^ (width - 1) : ℕ) : ℤ) := by push_cast; rfl
  simp only [fieldInt, true_and, hhalfInt, hcast]
  split <;> omega

theorem storeUnsigned_toNat {w : ℕ} {v : ℤ} (h0 : 0 ≤ v) (hlt : v < 2 ^ w) : ((storeUnsigned w v).toNat : ℤ) = v := by
  rw [storeUnsigned, if_pos ⟨h0, hlt⟩, BitVec.toNat_ofInt, Int.emod_eq_of_lt h0 (by exact_mod_cast hlt),
    Int.toNat_of_nonneg h0]

theorem storeUnsigned_fieldInt (w : Word) (start width : ℕ) :
    ((storeUnsigned width (fieldInt w start width false)).toNat : ℤ) = fieldInt w start width false := by
  obtain ⟨h0, hlt⟩ := fieldInt_unsigned_range w start width
  exact storeUnsigned_toNat h0 hlt

theorem storeSigned_fieldInt (w : Word) (start : ℕ) {width : ℕ} (hwidth : 0 < width) :
    (storeSigned width (fieldInt w start width true)).toInt = fieldInt w start width true := by
  obtain ⟨hlo, hhi⟩ := fieldInt_signed_range w start hwidth
  exact storeSigned_toInt hwidth hlo hhi

/-! ### The scalars that DECODE commits (41_decode.md rules R150, R151, R156) -/

section
variable (N : Numerics) (c : Config) (m : Memory) (t : DecodeTemps)

theorem reconstruct_decodeImage_kTPtat : (reconstruct N (decodeImage c m t)).kTPtat =
    kTPtatOf c.numerics (readField .ee m c.ft.ktLow) (readField .ee m c.ft.ktMid) := rfl

theorem reconstruct_decodeImage_kVPtat : (reconstruct N (decodeImage c m t)).kVPtat =
    kVPtatOf c.numerics (readField .ee m c.ft.kvPtatEE) := rfl

theorem reconstruct_decodeImage_vdd25 : (reconstruct N (decodeImage c m t)).vdd25 =
    storeUnsigned 8 (readField .ee m c.ft.vdd25EE) := rfl

theorem reconstruct_decodeImage_kVdd : (reconstruct N (decodeImage c m t)).kVdd =
    storeSigned 8 (readField .ee m c.ft.kVddEE) := rfl

theorem reconstruct_decodeImage_vPtat25 : (reconstruct N (decodeImage c m t)).vPtat25 =
    storeSigned 16 (readField .ee m c.ft.ptat25) := rfl

theorem reconstruct_decodeImage_gainEe : (reconstruct N (decodeImage c m t)).gainEe =
    storeSigned 16 (readField .ee m c.ft.eeGain) := rfl

end

theorem assemble_eq {sh : ℕ} {lo hi : ℤ} (hlo : 0 ≤ lo) (hlt : lo < 2 ^ sh) (hhi : 0 ≤ hi) :
    assemble sh lo hi = hi * 2 ^ sh + lo := by
  lift lo to ℕ using hlo
  lift hi to ℕ using hhi
  have hlt' : lo < 2 ^ sh := by exact_mod_cast hlt
  rw [assemble, if_pos ⟨by positivity, by positivity⟩, Int.toNat_natCast, Int.toNat_natCast,
    ← Nat.shiftLeft_add_eq_or_of_lt hlt', Nat.shiftLeft_eq]
  push_cast
  rfl

/-- `KT_raw` of an 8-bit and a 2-bit part (30_encoding.md rule R108). -/
theorem ktRawOf_eq {low mid : ℤ} (hlow : 0 ≤ low ∧ low < 2 ^ 8) (hmid : 0 ≤ mid ∧ mid < 2 ^ 2) :
    ktRawOf low mid = mid * 256 + low := by
  have hjoin : assemble 8 low mid = mid * 256 + low := assemble_eq hlow.1 hlow.2 hmid.1
  simp only [ktRawOf, hjoin]
  exact if_pos (by omega)

theorem f64Value_kTPtatOf {low mid : ℤ} (hlow : 0 ≤ low ∧ low < 2 ^ 8) (hmid : 0 ≤ mid ∧ mid < 2 ^ 2) :
    f64Value (kTPtatOf .binary64 low mid) = some (((mid * 256 + low : ℤ) : ℚ) / 8) := by
  have hquot : f64Value (F64.div (F64.ofInt (mid * 256 + low)) (F64.lit (2 ^ 3) 1)) = _ :=
    f64Value_div_lit_two_pow (by omega) (by omega)
  rw [kTPtatOf, ktRawOf_eq hlow hmid]
  norm_num at hquot ⊢
  exact hquot

theorem f64Value_kVPtatOf {v : ℤ} (hv : -2 ^ 5 ≤ v ∧ v < 2 ^ 5) :
    f64Value (kVPtatOf .binary64 v) = some ((v : ℚ) / 4096) := by
  have hquot : f64Value (F64.div (F64.ofInt v) (F64.lit (2 ^ 12) 1)) = _ :=
    f64Value_div_lit_two_pow (by omega) (by omega)
  rw [kVPtatOf]
  norm_num at hquot ⊢
  exact hquot

/-- Settles O23: each committed scalar is its row of the field's value, and the value lies in the row's type. -/
theorem decodeCommitsSourceScalars : Obligations.DecodeCommitsSourceScalars := by
  intro skip s hdef hvalid hlen hident
  refine ⟨s.runDecode, exec_decode_of_passes hvalid hlen hdef.decodeConfigWf_eq hident, ?_⟩
  have hread : ∀ f : FieldTuple, 0x2400 ≤ f.addr ∧ f.addr ≤ 0x273F ∧ sliceLegal f.slice = true →
      readField .ee s.din f = fieldInt (eeWord s.din f.addr) f.slice.start f.slice.width f.slice.signed :=
    fun f ⟨hbase, htop, hlegal⟩ => readField_ee hbase htop hlegal s.din
  rw [State.runDecode_cal, reconstruct_decodeImage_kTPtat, reconstruct_decodeImage_kVPtat,
    reconstruct_decodeImage_vdd25, reconstruct_decodeImage_kVdd, reconstruct_decodeImage_vPtat25,
    reconstruct_decodeImage_gainEe, hdef.numerics_eq, hdef.ft_eq, hread _ (by decide), hread _ (by decide),
    hread _ (by decide), hread _ (by decide), hread _ (by decide), hread _ (by decide), hread _ (by decide)]
  refine ⟨f64Value_kTPtatOf (fieldInt_unsigned_range _ _ _) (fieldInt_unsigned_range _ _ _),
    f64Value_kVPtatOf (fieldInt_signed_range _ _ (by decide)), storeUnsigned_fieldInt _ _ _,
    storeSigned_fieldInt _ _ (by decide), storeSigned_fieldInt _ _ (by decide), storeSigned_fieldInt _ _ (by decide)⟩

end Sys2Proof.Machine
end

section
/-! The per-pixel reconstruction of DECODE (41_decode.md rules R170 to R173): each formula with its range. -/

namespace Sys2Proof.Machine

/-! ### Shifts and indices -/

theorem shl_of_nonneg {a n : ℤ} (hn : 0 ≤ n) : shl a n = a * 2 ^ n.toNat := if_pos hn

/-- The reach of a field times the power of two of a 4-bit scale. -/
theorem mul_two_pow_range {a lo hi n : ℤ} (hlo : lo ≤ a) (hhi : a ≤ hi) (hlo0 : lo ≤ 0) (hhi0 : 0 ≤ hi) (hn : n ≤ 15) :
    lo * 32768 ≤ a * 2 ^ n.toNat ∧ a * 2 ^ n.toNat ≤ hi * 32768 := by
  have hone : (1 : ℤ) ≤ 2 ^ n.toNat := one_le_pow₀ (by norm_num)
  have htop : (2 : ℤ) ^ n.toNat ≤ 2 ^ 15 := pow_le_pow_right₀ (by norm_num) (by omega)
  constructor <;> nlinarith

theorem rowIndex_eq {i : Pixel} {r : Fin 24} {c : Fin 32} (h : i.val = 32 * r.val + c.val) : rowIndex i = r := by
  apply Fin.ext
  rw [rowIndex]
  dsimp only
  omega

theorem colIndex_eq {i : Pixel} {r : Fin 24} {c : Fin 32} (h : i.val = 32 * r.val + c.val) : colIndex i = c := by
  apply Fin.ext
  rw [colIndex]
  dsimp only
  omega

/-- The parity cell of a pixel (41_decode.md rule R173). -/
theorem quad_get_parity {α : Type} (q : Quad α) (i : Pixel) :
    q.get (rowParity i) (colParity i) =
      if i.val / 32 % 2 = 0 then (if i.val % 32 % 2 = 0 then q.at00 else q.at01)
      else (if i.val % 32 % 2 = 0 then q.at10 else q.at11) := by
  have hrow : rowParity i = 0 ↔ i.val / 32 % 2 = 0 := by
    rw [Fin.ext_iff]
    rfl
  have hcol : colParity i = 0 ↔ i.val % 32 % 2 = 0 := by
    rw [Fin.ext_iff]
    rfl
  simp only [Quad.get, hrow, hcol]

/-! ### The three committed arrays -/

section
variable (N : Numerics) (t : DecodeTemps) (i : Pixel)

@[simp] theorem reconstruct_kTa_get : (reconstruct N t).kTa.get i = kTaOf N t i := Cells.get_ofFn _ i

@[simp] theorem reconstruct_offsetRef_get : (reconstruct N t).offsetRef.get i = storeSigned 32 (offsetRefOf t i) :=
  Cells.get_ofFn _ i

@[simp] theorem reconstruct_aRef_get : (reconstruct N t).aRef.get i = aRefOf N t i := Cells.get_ofFn _ i

end

theorem f64Value_kTaOf {t : DecodeTemps} {i : Pixel} (hn : (kTaNumerator t i).natAbs < 2 ^ 53) (h0 : 0 ≤ t.kTaScale1)
    (h60 : t.kTaScale1 ≤ 60) :
    f64Value (kTaOf .binary64 t i) = some ((kTaNumerator t i : ℚ) / 2 ^ t.kTaScale1.toNat) :=
  f64Value_div_pow2 hn h0 h60

theorem f64Value_aRefOf {t : DecodeTemps} {i : Pixel} (hn : (aRefNumerator t i).natAbs < 2 ^ 53) (h0 : 0 ≤ t.aScale)
    (h60 : t.aScale ≤ 60) :
    f64Value (aRefOf .binary64 t i) = some ((aRefNumerator t i : ℚ) / 2 ^ t.aScale.toNat) :=
  f64Value_div_pow2 hn h0 h60

theorem kTaNumerator_eq {t : DecodeTemps} {i : Pixel} (hscale : 0 ≤ t.kTaScale2) :
    kTaNumerator t i = t.kTa2x2.get (rowParity i) (colParity i) + t.kTaIncrement.get i * 2 ^ t.kTaScale2.toNat := by
  rw [kTaNumerator, shl_of_nonneg hscale]

theorem offsetRefOf_eq {t : DecodeTemps} {i : Pixel} {r : Fin 24} {c : Fin 32} (hi : i.val = 32 * r.val + c.val)
    (hrow : 0 ≤ t.rowScale) (hcol : 0 ≤ t.colScale) (hrem : 0 ≤ t.remScale) :
    offsetRefOf t i =
      t.offsetAvg + t.offsetRow.get r * 2 ^ t.rowScale.toNat + t.offsetCol.get c * 2 ^ t.colScale.toNat +
        t.pixOff.get i * 2 ^ t.remScale.toNat := by
  rw [offsetRefOf, rowIndex_eq hi, colIndex_eq hi, shl_of_nonneg hrow, shl_of_nonneg hcol, shl_of_nonneg hrem]

theorem aRefNumerator_eq {t : DecodeTemps} {i : Pixel} {r : Fin 24} {c : Fin 32} (hi : i.val = 32 * r.val + c.val)
    (hrow : 0 ≤ t.aRowScale) (hcol : 0 ≤ t.aColScale) (hrem : 0 ≤ t.aRemScale) :
    aRefNumerator t i =
      t.aAvg + t.aRow.get r * 2 ^ t.aRowScale.toNat + t.aCol.get c * 2 ^ t.aColScale.toNat +
        t.alphaRem.get i * 2 ^ t.aRemScale.toNat := by
  rw [aRefNumerator, rowIndex_eq hi, colIndex_eq hi, shl_of_nonneg hrow, shl_of_nonneg hcol, shl_of_nonneg hrem]

/-! ### The formulas -/

/-- Settles O27: `n_kta` is far below `2 ^ 53`, so the quotient is exact. -/
theorem ambientCoefficientFormula : Obligations.AmbientCoefficientFormula := by
  intro t i hgrid hinclo hinchi hs2lo hs2hi hs1lo hs1hi
  obtain ⟨hcelllo, hcellhi⟩ := hgrid (rowParity i) (colParity i)
  obtain ⟨htermlo, htermhi⟩ := mul_two_pow_range hinclo hinchi (by norm_num) (by norm_num) hs2hi
  have hsum : kTaNumerator t i = _ := kTaNumerator_eq hs2lo
  refine ⟨kTaNumerator t i, by rw [hsum, quad_get_parity], by omega, by omega, ?_⟩
  rw [reconstruct_kTa_get]
  exact f64Value_kTaOf (by omega) (by omega) (by omega)

/-- Settles O28: the sum of the four terms fits in 32 bits, so the store keeps it. -/
theorem offsetReferenceFormula : Obligations.OffsetReferenceFormula := by
  intro N t i r c hi havglo havghi hrowlo hrowhi hcollo hcolhi hpixlo hpixhi hrs0 hrs hcs0 hcs hps0 hps
  obtain ⟨hrowtermlo, hrowtermhi⟩ := mul_two_pow_range hrowlo hrowhi (by norm_num) (by norm_num) hrs
  obtain ⟨hcoltermlo, hcoltermhi⟩ := mul_two_pow_range hcollo hcolhi (by norm_num) (by norm_num) hcs
  obtain ⟨hpixtermlo, hpixtermhi⟩ := mul_two_pow_range hpixlo hpixhi (by norm_num) (by norm_num) hps
  have hsum := offsetRefOf_eq hi hrs0 hcs0 hps0
  have hstore : (storeSigned 32 (offsetRefOf t i)).toInt = offsetRefOf t i :=
    storeSigned_toInt (by norm_num) (by omega) (by omega)
  rw [reconstruct_offsetRef_get, hstore]
  exact ⟨hsum, by omega, by omega⟩

/-- Settles O29: `n_a` is far below `2 ^ 53`, so the quotient is exact. -/
theorem sensitivityFormula : Obligations.SensitivityFormula := by
  intro t i r c hi havglo havghi hrowlo hrowhi hcollo hcolhi hremlo hremhi hrs0 hrs hcs0 hcs hps0 hps hslo hshi
  obtain ⟨hrowtermlo, hrowtermhi⟩ := mul_two_pow_range hrowlo hrowhi (by norm_num) (by norm_num) hrs
  obtain ⟨hcoltermlo, hcoltermhi⟩ := mul_two_pow_range hcollo hcolhi (by norm_num) (by norm_num) hcs
  obtain ⟨hremtermlo, hremtermhi⟩ := mul_two_pow_range hremlo hremhi (by norm_num) (by norm_num) hps
  have hsum := aRefNumerator_eq hi hrs0 hcs0 hps0
  refine ⟨aRefNumerator t i, hsum, by omega, by omega, ?_⟩
  rw [reconstruct_aRef_get]
  exact f64Value_aRefOf (by omega) (by omega) (by omega)

end Sys2Proof.Machine
end

section
/-! The exact results of the default `NUMERICS` that COMPENSATE step 8 relies on (42_compensate.md rule R203): a product by a
zero, a product by 1.0, and the sum of 1.0 and a zero. -/

namespace Sys2Proof.Machine

/-! ### A pattern that is no zero is given by its value -/

theorem mant_lt (x : F64) : F64.mant x < 2 ^ 53 := by
  unfold F64.mant F64.frac
  split <;> omega

theorem scale_range {x : F64} (h : F64.isFinite x = true) : 1 ≤ F64.scale x ∧ F64.scale x ≤ 2046 := by
  rw [F64.isFinite, decide_eq_true_iff] at h
  have hexp : F64.expField x < 2048 := Nat.mod_lt _ (by norm_num)
  unfold F64.scale
  omega

/-- Above the least scale the significand has its leading bit. -/
theorem two_pow_le_mant {x : F64} (h : 2 ≤ F64.scale x) : 2 ^ 52 ≤ F64.mant x := by
  unfold F64.scale at h
  rw [F64.mant, if_neg (by omega)]
  omega

theorem scale_of_isZero {x : F64} (h : F64.isZero x = true) : F64.scale x = 1 := by
  rw [F64.isZero, decide_eq_true_iff] at h
  unfold F64.scale F64.expField
  omega

theorem magOf_pos {x : F64} (h : F64.isZero x = false) : 0 < magOf x := by
  have hmant := mant_pos_of_not_isZero h
  unfold magOf
  positivity

theorem eq_of_parts {x y : F64} (hneg : F64.neg x = F64.neg y) (hmant : F64.mant x = F64.mant y)
    (hscale : F64.scale x = F64.scale y) : x = y := by
  have hx := x.isLt
  have hy := y.isLt
  have hsign : 2 ^ 63 ≤ x.toNat ↔ 2 ^ 63 ≤ y.toNat := decide_eq_decide.1 hneg
  unfold F64.scale F64.expField at hscale
  unfold F64.mant F64.expField F64.frac at hmant
  apply BitVec.eq_of_toNat_eq
  split at hmant <;> split at hmant <;> omega

theorem isZero_zero (neg : Bool) : F64.isZero (F64.zero neg) = true := by
  cases neg <;> decide

/-- There is one zero of each sign. -/
theorem eq_zero_of_isZero {x : F64} (h : F64.isZero x = true) : x = F64.zero (F64.neg x) :=
  have hzero := isZero_zero (F64.neg x)
  eq_of_parts (neg_pack _ (by norm_num)).symm
    ((mant_eq_zero_of_isZero h).trans (mant_eq_zero_of_isZero hzero).symm)
    ((scale_of_isZero h).trans (scale_of_isZero hzero).symm)

/-- A magnitude has one significand and one scale: with a larger scale for `y`, the significand at the scale of `x` would
have 54 bits. -/
theorem parts_eq_of_magOf_eq_of_le {x y : F64} (h : magOf x = magOf y) (hle : F64.scale x ≤ F64.scale y)
    (hx : 1 ≤ F64.scale x) : F64.mant x = F64.mant y ∧ F64.scale x = F64.scale y := by
  obtain ⟨k, hk⟩ := Nat.exists_eq_add_of_le hle
  have hmant : F64.mant x = F64.mant y * 2 ^ k := by
    have hexp : (F64.scale y : ℤ) - 1075 = k + ((F64.scale x : ℤ) - 1075) := by omega
    rw [magOf, magOf, hexp, zpow_add₀ two_ne_zero, ← mul_assoc, zpow_natCast] at h
    exact_mod_cast mul_right_cancel₀ (by positivity) h
  obtain rfl | hpos := Nat.eq_zero_or_pos k
  · exact ⟨by rw [hmant, pow_zero, mul_one], hk.symm⟩
  · have hlead : 2 ^ 52 ≤ F64.mant y := two_pow_le_mant (by omega)
    have htwo : 2 ^ 1 ≤ 2 ^ k := Nat.pow_le_pow_right two_pos hpos
    have hwide : 2 ^ 52 * 2 ^ 1 ≤ F64.mant x := hmant ▸ Nat.mul_le_mul hlead htwo
    have hnarrow := mant_lt x
    omega

theorem parts_eq_of_magOf_eq {x y : F64} (hx : F64.isFinite x = true) (hy : F64.isFinite y = true)
    (h : magOf x = magOf y) : F64.mant x = F64.mant y ∧ F64.scale x = F64.scale y := by
  obtain hle | hle := le_total (F64.scale x) (F64.scale y)
  · exact parts_eq_of_magOf_eq_of_le h hle (scale_range hx).1
  · obtain ⟨hmant, hscale⟩ := parts_eq_of_magOf_eq_of_le h.symm hle (scale_range hy).1
    exact ⟨hmant.symm, hscale.symm⟩

theorem signOf_injective : Function.Injective signOf := by
  intro p q h
  cases p <;> cases q
  · rfl
  · norm_num [signOf] at h
  · norm_num [signOf] at h
  · rfl

theorem signOf_mul_inj {p q : Bool} {a b : ℚ} (ha : 0 < a) (hb : 0 < b) (h : signOf p * a = signOf q * b) :
    p = q ∧ a = b := by
  have habs := congrArg abs h
  rw [abs_mul, abs_mul, abs_signOf, abs_signOf, one_mul, one_mul, abs_of_pos ha, abs_of_pos hb] at habs
  subst habs
  exact ⟨signOf_injective (mul_right_cancel₀ ha.ne' h), rfl⟩

theorem isZero_eq_false_of_f64Value {x : F64} {a : ℚ} (hx : f64Value x = some a) (ha : a ≠ 0) : F64.isZero x = false :=
  Bool.eq_false_iff.2 fun h => ha (Option.some.inj (hx.symm.trans (f64Value_of_isZero h)))

/-- Two patterns of one nonzero value are the same pattern. -/
theorem eq_of_f64Value_eq {x y : F64} {a : ℚ} (hx : f64Value x = some a) (hy : f64Value y = some a) (ha : a ≠ 0) :
    x = y := by
  have hxpos := magOf_pos (isZero_eq_false_of_f64Value hx ha)
  have hypos := magOf_pos (isZero_eq_false_of_f64Value hy ha)
  obtain ⟨hxfin, rfl⟩ := f64Value_eq_some.1 hx
  obtain ⟨hyfin, hval⟩ := f64Value_eq_some.1 hy
  obtain ⟨hneg, hmag⟩ := signOf_mul_inj hypos hxpos hval
  obtain ⟨hmant, hscale⟩ := parts_eq_of_magOf_eq hyfin hxfin hmag
  exact (eq_of_parts hneg hmant hscale).symm

/-! ### Products -/

theorem mul_of_isZero {x y : F64} (hx : F64.isFinite x = true) (hy : F64.isFinite y = true)
    (h : F64.isZero x = true ∨ F64.isZero y = true) : F64.mul x y = F64.zero (F64.neg x != F64.neg y) := by
  obtain ⟨hxnan, hxinf⟩ := F64.not_nan_of_isFinite hx
  obtain ⟨hynan, hyinf⟩ := F64.not_nan_of_isFinite hy
  simp [F64.mul, hxnan, hxinf, hynan, hyinf, h]

theorem mul_of_not_isZero {x y : F64} (hxfin : F64.isFinite x = true) (hx : F64.isZero x = false)
    (hyfin : F64.isFinite y = true) (hy : F64.isZero y = false) :
    F64.mul x y =
      F64.ofScaled (F64.neg x != F64.neg y) (F64.mant x * F64.mant y) 1 ((F64.scale x : ℤ) + F64.scale y - 2150) := by
  obtain ⟨hxnan, hxinf⟩ := F64.not_nan_of_isFinite hxfin
  obtain ⟨hynan, hyinf⟩ := F64.not_nan_of_isFinite hyfin
  simp [F64.mul, hxnan, hxinf, hynan, hyinf, hx, hy]

theorem signOf_xor_eq_mul (p q : Bool) : signOf (p != q) = signOf p * signOf q := by
  cases p <;> cases q <;> norm_num [signOf]

/-- A product of nonzero values that is representable is exact. -/
theorem f64Value_mul {x y : F64} {a b : ℚ} (hx : f64Value x = some a) (hy : f64Value y = some b) (ha : a ≠ 0) (hb : b ≠ 0)
    (hrep : Representable (a * b)) : f64Value (F64.mul x y) = some (a * b) := by
  have hxzero := isZero_eq_false_of_f64Value hx ha
  have hyzero := isZero_eq_false_of_f64Value hy hb
  obtain ⟨hxfin, rfl⟩ := f64Value_eq_some.1 hx
  obtain ⟨hyfin, rfl⟩ := f64Value_eq_some.1 hy
  have hxmant := mant_pos_of_not_isZero hxzero
  have hymant := mant_pos_of_not_isZero hyzero
  have hsign : signOf (F64.neg x) * magOf x * (signOf (F64.neg y) * magOf y) =
      signOf (F64.neg x != F64.neg y) * (magOf x * magOf y) := by
    rw [signOf_xor_eq_mul, mul_mul_mul_comm]
  have hmag : ((F64.mant x * F64.mant y : ℕ) : ℚ) / (1 : ℕ) * (2 : ℚ) ^ ((F64.scale x : ℤ) + F64.scale y - 2150) =
      magOf x * magOf y := by
    have hexp : (F64.scale x : ℤ) + F64.scale y - 2150 = (F64.scale x - 1075) + (F64.scale y - 1075) := by ring
    rw [magOf, magOf, mul_mul_mul_comm, ← zpow_add₀ two_ne_zero, hexp, Nat.cast_mul, Nat.cast_one, div_one]
  rw [hsign, representable_signOf_mul, ← hmag] at hrep
  rw [mul_of_not_isZero hxfin hxzero hyfin hyzero, hsign, ← hmag]
  exact f64Value_ofScaled _ (by positivity) one_pos hrep

theorem representable_of_f64Value {x : F64} {a : ℚ} (h : f64Value x = some a) : Representable a := by
  obtain ⟨hfin, rfl⟩ := f64Value_eq_some.1 h
  obtain ⟨hlo, hhi⟩ := scale_range hfin
  rw [representable_signOf_mul]
  exact ⟨F64.mant x, (F64.scale x : ℤ) - 1075, abs_of_nonneg (by unfold magOf; positivity), mant_lt x, by omega, by omega⟩

theorem f64Value_one : f64Value (F64.lit 1 1) = some 1 := by
  simpa using f64Value_lit_two_pow (Nat.zero_le 971)

/-- A factor of 1.0 leaves a finite value, and the sign of a zero, as it is. -/
theorem mul_one_of_isFinite {x : F64} (h : F64.isFinite x = true) : F64.mul x (F64.lit 1 1) = x := by
  obtain ⟨hone, -⟩ := f64Value_eq_some.1 f64Value_one
  have hval : f64Value x = some _ := f64Value_eq_some.2 ⟨h, rfl⟩
  cases hzero : F64.isZero x with
  | true =>
    have hneg : F64.neg (F64.lit 1 1) = false := by decide
    rw [mul_of_isZero h hone (.inl hzero), hneg, Bool.bne_false, ← eq_zero_of_isZero hzero]
  | false =>
    have hne : signOf (F64.neg x) * magOf x ≠ 0 :=
      mul_ne_zero (by simp [← abs_ne_zero, abs_signOf]) (magOf_pos hzero).ne'
    have hprod := f64Value_mul hval f64Value_one hne one_ne_zero (by rw [mul_one]; exact representable_of_f64Value hval)
    rw [mul_one] at hprod
    exact eq_of_f64Value_eq hprod hval hne

theorem add_one_zero (neg : Bool) : F64.add (F64.lit 1 1) (F64.zero neg) = F64.lit 1 1 := by
  cases neg <;> decide +kernel

/-! ### The pixel formula -/

/-- An `offset_ref` is far below `2 ^ 53`, so its conversion is finite. -/
theorem isFinite_ofInt_toInt (v : I32) : F64.isFinite (F64.ofInt v.toInt) = true := by
  have hlo := BitVec.le_toInt v
  have hhi := BitVec.toInt_lt (x := v)
  exact (f64Value_eq_some.1 (f64Value_ofInt (by omega))).1

/-- A compensation factor `1 + k * d` of a zero difference `d` (42_compensate.md rule R203). -/
theorem factor_eq_one {k d : F64} (hk : F64.isFinite k = true) (hd : F64.isZero d = true) :
    F64.add (F64.lit 1 1) (F64.mul k d) = F64.lit 1 1 := by
  obtain ⟨hfin, -⟩ := f64Value_eq_some.1 (f64Value_of_isZero hd)
  rw [mul_of_isZero hk hfin (.inr hd), add_one_zero]

section
variable {cal : Cal} {k : FrameScalars} {i : Pixel}

theorem pixelT1_eq_one (hdTa : F64.isZero k.dTa = true) (hkTa : F64.isFinite (cal.kTa.get i) = true) :
    pixelT1 .binary64 cal k i = F64.lit 1 1 :=
  factor_eq_one hkTa hdTa

theorem pixelT2_eq_one (hdV : F64.isZero k.dV = true)
    (hkV : F64.isFinite (cal.kV.get (rowParity i) (colParity i)) = true) : pixelT2 .binary64 cal k i = F64.lit 1 1 :=
  factor_eq_one hkV hdV

/-- With both factors 1.0 the offset is subtracted as it is. -/
theorem pixelPix_of_factors_eq_one (raw : ℤ) (h1 : pixelT1 .binary64 cal k i = F64.lit 1 1)
    (h2 : pixelT2 .binary64 cal k i = F64.lit 1 1) :
    pixelPix .binary64 cal k raw i =
      F64.sub (F64.mul (F64.ofInt raw) k.gain) (F64.ofInt (cal.offsetRef.get i).toInt) := by
  have hoffset := mul_one_of_isFinite (isFinite_ofInt_toInt (cal.offsetRef.get i))
  simp [pixelPix, sext, h1, h2, hoffset]

end

/-- Settles O39: a finite coefficient times a zero is a zero, so both factors are 1.0, and a product by 1.0 is exact. -/
theorem pixelFormula : Obligations.PixelFormula := by
  intro cal k raw i
  refine ⟨fun N => ?_, fun hdV hdTa hkTa hkV => ?_⟩
  · rw [← quad_get_parity]
    rfl
  · have h1 := pixelT1_eq_one hdTa hkTa
    have h2 := pixelT2_eq_one hdV (hkV (rowParity i) (colParity i))
    exact ⟨h1, h2, pixelPix_of_factors_eq_one raw h1 h2⟩

end Sys2Proof.Machine
end

section
/-! The records of TRACK (43_track.md rules R223, R224): which pixel each one is of, and what it says of that pixel. -/

namespace Sys2Proof.Machine

/-! ### The record of a pixel -/

section
variable (v : Cells 768 F64)

/-- A column is at most 31, so the 8-bit field holds it. -/
@[simp] theorem notableAt_x_toNat (i : Pixel) : (notableAt v i).x.toNat = i.val % 32 := by
  have hcol : i.val % 32 < 2 ^ 8 := by omega
  exact (BitVec.toNat_ofNat _ _).trans (Nat.mod_eq_of_lt hcol)

/-- A row is at most 23, so the 8-bit field holds it. -/
@[simp] theorem notableAt_y_toNat (i : Pixel) : (notableAt v i).y.toNat = i.val / 32 := by
  have hrow : i.val / 32 < 2 ^ 8 := by omega
  exact (BitVec.toNat_ofNat _ _).trans (Nat.mod_eq_of_lt hrow)

@[simp] theorem notableAt_temperature (i : Pixel) : (notableAt v i).temperature = v.get i := rfl

theorem notableAt_centerPixel : notableAt v centerPixel = ⟨16#8, 12#8, v.get 400⟩ := rfl

end

/-! ### The pixels reported -/

section
variable (N : Numerics) (v : Cells 768 F64)

@[simp] theorem track_min : (track N v).min = notableAt v (minIndex N v) := rfl

@[simp] theorem track_max : (track N v).max = notableAt v (maxIndex N v) := rfl

@[simp] theorem track_center : (track N v).center = notableAt v centerPixel := rfl

end

/-- Settles O44: the three records are those of `minIndex`, `maxIndex` and `centerPixel`, whatever the comparisons of
`NUMERICS` answer. -/
theorem trackReportsCentreAndCoordinates : Obligations.TrackReportsCentreAndCoordinates := by
  intro N v
  have hreports : ∀ i : Pixel, (notableAt v i).x.toNat = i.val % 32 ∧ (notableAt v i).y.toNat = i.val / 32 ∧
      (notableAt v i).temperature = v.get i :=
    fun i => ⟨notableAt_x_toNat v i, notableAt_y_toNat v i, notableAt_temperature v i⟩
  rw [track_center, track_min, track_max]
  exact ⟨notableAt_centerPixel v, ⟨minIndex N v, hreports _⟩, ⟨maxIndex N v, hreports _⟩⟩

end Sys2Proof.Machine
end

section
/-! The decoder and the encoder (30_encoding.md): what an instruction's word decodes to, and which words decode. -/

namespace Sys2Proof

/-! ### Sub-fields of a pattern -/

/-- A sub-field is read back from where it was placed. -/
theorem extractLsb'_placed_self {n w lo : Nat} (v : BitVec n) (h : lo + n ≤ w) : (placed w v lo).extractLsb' lo n = v := by
  refine BitVec.eq_of_getLsbD_eq fun k hk => ?_
  have hlt : lo + k < w := by omega
  simp [placed, hk, hlt]

/-- A sub-field placed elsewhere leaves these bits 0. -/
theorem extractLsb'_placed_disjoint {m w lo' : Nat} (v : BitVec m) (lo n : Nat) (h : lo' + m ≤ lo ∨ lo + n ≤ lo') :
    (placed w v lo').extractLsb' lo n = 0#n := by
  refine BitVec.eq_of_getLsbD_eq fun k hk => ?_
  simp only [placed, BitVec.getLsbD_extractLsb', hk, BitVec.getLsbD_shiftLeft, BitVec.getLsbD_setWidth, BitVec.getLsbD_zero]
  obtain h | h := h
  · simp [BitVec.getLsbD_of_ge v (lo + k - lo') (by omega)]
  · simp [show lo + k < lo' by omega]

/-- The bits of a sub-field put back in its place. -/
theorem getLsbD_placed_extractLsb' {w k : Nat} (x : BitVec w) (lo n : Nat) (hk : k < w) :
    (placed w (x.extractLsb' lo n) lo).getLsbD k = (decide (lo ≤ k ∧ k < lo + n) && x.getLsbD k) := by
  by_cases hlo : lo ≤ k
  · have hadd : lo + (k - lo) = k := by omega
    have hiff : k - lo < n ↔ k < lo + n := by omega
    simp [placed, hk, hlo, hadd, hiff]
  · simp [placed, hlo, hk, show k < lo by omega]

theorem getLsbD_eq_extractLsb' {w : Nat} (x : BitVec w) (i : Nat) : BitVec.ofBool (x.getLsbD i) = x.extractLsb' i 1 := by
  refine BitVec.eq_of_getLsbD_eq fun k hk => ?_
  obtain rfl : k = 0 := by omega
  simp

theorem getLsbD_eq_of_extractLsb' {w i : Nat} {x : BitVec w} {b : Bool} (h : x.extractLsb' i 1 = BitVec.ofBool b) :
    x.getLsbD i = b := by
  rw [← getLsbD_eq_extractLsb'] at h
  simpa using congrArg (BitVec.getLsbD · 0) h

/-! ### The decoder undoes the encoder -/

theorem split4444_join4444 (a b c d : BitVec 4) (mk : BitVec 4 → BitVec 4 → BitVec 4 → BitVec 4 → Instr) :
    split4444 (join4444 a b c d) mk = mk a b c d := by
  simp (disch := omega) [split4444, join4444, BitVec.extractLsb'_or, extractLsb'_placed_self, extractLsb'_placed_disjoint]

theorem split88_join88 (l h : BitVec 8) (mk : BitVec 8 → BitVec 8 → Instr) : split88 (join88 l h) mk = mk l h := by
  simp (disch := omega) [split88, join88, BitVec.extractLsb'_or, extractLsb'_placed_self, extractLsb'_placed_disjoint]

/-- Which command words decode, and to what (30_encoding.md rules R101 to R105). -/
theorem decodeCommand_eq_ok_iff (cw : CmdWord) (i : Instr) :
    decodeCommand cw = .ok i ↔
      (cw.extractLsb' 28 4 = 1#4 ∧ cw.extractLsb' 16 2 = 0#2 ∧
        extractSpelling (cw.getLsbD 27) (cw.extractLsb' 22 5) (cw.extractLsb' 18 4) (cw.extractLsb' 0 16) = i) ∨
      (cw.extractLsb' 28 4 = 2#4 ∧ cw.extractLsb' 0 27 = 0#27 ∧ .decode (cw.getLsbD 27) = i) ∨
      (cw.extractLsb' 28 4 = 3#4 ∧ cw.extractLsb' 0 28 = 0#28 ∧ .compensate = i) := by
  unfold decodeCommand
  dsimp only
  split
  next h => split <;> simp_all
  next h =>
    split
    next h => split <;> simp_all
    next h =>
      split
      next h => split <;> simp_all
      next h => simp_all

theorem decodeCommand_encodeExtract (signed : Bool) (width : BitVec 5) (start : BitVec 4) (word : Word) :
    decodeCommand (encodeExtract signed width start word) = .ok (extractSpelling signed width start word) := by
  have hsigned : (encodeExtract signed width start word).extractLsb' 27 1 = BitVec.ofBool signed := by
    simp (disch := omega) [encodeExtract, BitVec.extractLsb'_or, extractLsb'_placed_self, extractLsb'_placed_disjoint]
  rw [decodeCommand_eq_ok_iff, getLsbD_eq_of_extractLsb' hsigned]
  left
  simp (disch := omega) [encodeExtract, BitVec.extractLsb'_or, extractLsb'_placed_self, extractLsb'_placed_disjoint]

theorem decodeCommand_encodeDecode (skip : Bool) :
    decodeCommand (placed 32 2#4 28 ||| placed 32 (BitVec.ofBool skip) 27) = .ok (.decode skip) := by
  cases skip <;> decide

/-- A word of the SEXT6 row is spelt SEXT6 (30_encoding.md rule R107). -/
theorem extractSpelling_sext6 (v : BitVec 6) : extractSpelling true 6#5 0#4 (v.setWidth 16) = .sext6 v := by
  have hplaced : v.setWidth 16 = placed 16 v 0 := by simp [placed]
  have hform : isSext6Form true 6#5 0#4 (v.setWidth 16) = true := by
    simp [isSext6Form, hplaced, extractLsb'_placed_disjoint]
  rw [extractSpelling, if_pos hform, hplaced, extractLsb'_placed_self v (by omega)]

/-- A word of the NIBBLE row is spelt NIBBLE (30_encoding.md rule R107). -/
theorem extractSpelling_nibble (w : Word) (j : BitVec 2) : extractSpelling true 4#5 (placed 4 j 2) w = .nibble w j := by
  have hsext6 : ¬ isSext6Form true 4#5 (placed 4 j 2) w = true := by simp [isSext6Form]
  have hnibble : isNibbleForm true 4#5 (placed 4 j 2) = true := by
    simp [isNibbleForm, extractLsb'_placed_disjoint]
  rw [extractSpelling, if_neg hsext6, if_pos hnibble, extractLsb'_placed_self j (by omega)]

/-- Settles O1: each sub-field is read back from where the encoder placed it, and a command word of a pseudo-operation's
row has that row's spelling. -/
theorem encodeThenDecodeGivesInstruction : Obligations.EncodeThenDecodeGivesInstruction := by
  intro i hwf
  cases i with
  | extract signed width start word =>
    obtain ⟨hsext6, hnibble⟩ : isSext6Form signed width start word = false ∧ isNibbleForm signed width start = false := by
      simpa [Instr.WellFormed, Instr.wf] using hwf
    rw [encode, decode, decodeCommand_encodeExtract, extractSpelling, hsext6, hnibble]
    rfl
  | decode skip => exact decodeCommand_encodeDecode skip
  | compensate => decide
  | sext6 v => rw [encode, decode, decodeCommand_encodeExtract, extractSpelling_sext6]
  | nibble w j => rw [encode, decode, decodeCommand_encodeExtract, extractSpelling_nibble]
  | w2410 | w2420 | w2434 | w2438 | occRow | occCol | accRow | accCol =>
    rw [encode, decode, decodeRow, split4444_join4444]
  | w2433 | w2436 | w2437 | w243C => rw [encode, decode, decodeRow, split88_join88]
  | w2432 | pixword | statusWord =>
    simp (disch := omega) [encode, decode, decodeRow, BitVec.extractLsb'_or, extractLsb'_placed_self,
      extractLsb'_placed_disjoint]
  | ptat25 | eeGain | offsetAvg | alphaAvg | rawPixel | ambientProxyRaw | vddRaw | vBe | gainRam => rfl

/-! ### The encoder undoes the decoder -/

/-- Two adjacent sub-fields put back are one sub-field put back. -/
theorem placed_or_placed_extractLsb' {w lo m hi : Nat} (x : BitVec w) (n : Nat) (h : lo + m = hi) :
    placed w (x.extractLsb' hi n) hi ||| placed w (x.extractLsb' lo m) lo = placed w (x.extractLsb' lo (m + n)) lo := by
  refine BitVec.eq_of_getLsbD_eq fun k hk => ?_
  rw [BitVec.getLsbD_or, getLsbD_placed_extractLsb' x _ _ hk, getLsbD_placed_extractLsb' x _ _ hk,
    getLsbD_placed_extractLsb' x _ _ hk, ← Bool.and_or_distrib_right, ← Bool.decide_or]
  congr 2
  rw [eq_iff_iff]
  omega

theorem placed_extractLsb'_full {w : Nat} (x : BitVec w) : placed w (x.extractLsb' 0 w) 0 = x := by
  simp [placed]

/-- Bits that are 0 may be left out below a sub-field. -/
theorem placed_extractLsb'_of_zero_below {w lo m hi : Nat} {x : BitVec w} (n : Nat) (h : lo + m = hi)
    (hzero : x.extractLsb' lo m = 0#m) : placed w (x.extractLsb' hi n) hi = placed w (x.extractLsb' lo (m + n)) lo := by
  rw [← placed_or_placed_extractLsb' x n h, hzero]
  simp [placed]

theorem join4444_extractLsb' (w : Word) :
    join4444 (w.extractLsb' 0 4) (w.extractLsb' 4 4) (w.extractLsb' 8 4) (w.extractLsb' 12 4) = w := by
  simp (disch := omega) only [join4444, placed_or_placed_extractLsb', placed_extractLsb'_full]

theorem join88_extractLsb' (w : Word) : join88 (w.extractLsb' 0 8) (w.extractLsb' 8 8) = w := by
  simp (disch := omega) only [join88, placed_or_placed_extractLsb', placed_extractLsb'_full]

theorem encode_decodeRow (row : RecordRow) (w : Word) : encode (decodeRow row w) = .record row w := by
  cases row with
  | w2410 | w2420 | w2434 | w2438 | occRow | occCol | accRow | accCol =>
    rw [decodeRow, split4444, encode, join4444_extractLsb']
  | w2433 | w2436 | w2437 | w243C => rw [decodeRow, split88, encode, join88_extractLsb']
  | w2432 | pixword | statusWord =>
    simp (disch := omega) only [decodeRow, encode, placed_or_placed_extractLsb', placed_extractLsb'_full]
  | ptat25 | eeGain | offsetAvg | alphaAvg | rawPixel | ambientProxyRaw | vddRaw | vBe | gainRam => rfl

theorem decodeRow_wellFormed (row : RecordRow) (w : Word) : (decodeRow row w).WellFormed := by
  cases row <;> rfl

/-- The three spellings of an EXTRACT word are well-formed. -/
theorem extractSpelling_wellFormed (signed : Bool) (width : BitVec 5) (start : BitVec 4) (word : Word) :
    (extractSpelling signed width start word).WellFormed := by
  unfold extractSpelling
  split
  next => rfl
  next hsext6 =>
    split
    next => rfl
    next hnibble => simp [Instr.WellFormed, Instr.wf, hsext6, hnibble]

/-- The three spellings of an EXTRACT word are that word. -/
theorem encode_extractSpelling (signed : Bool) (width : BitVec 5) (start : BitVec 4) (word : Word) :
    encode (extractSpelling signed width start word) = .command (encodeExtract signed width start word) := by
  unfold extractSpelling
  split
  next h =>
    simp only [isSext6Form, Bool.and_eq_true, beq_iff_eq] at h
    obtain ⟨⟨⟨rfl, rfl⟩, rfl⟩, hzero⟩ := h
    have hword : (word.extractLsb' 0 6).setWidth 16 = word := by
      have hjoin := placed_or_placed_extractLsb' (lo := 0) (m := 6) word 10 rfl
      rw [hzero, placed_extractLsb'_full] at hjoin
      simpa [placed] using hjoin
    rw [encode, hword]
  next =>
    split
    next h =>
      simp only [isNibbleForm, Bool.and_eq_true, beq_iff_eq] at h
      obtain ⟨⟨rfl, rfl⟩, hzero⟩ := h
      have hstart : placed 4 (start.extractLsb' 2 2) 2 = start := by
        rw [placed_extractLsb'_of_zero_below 2 rfl hzero, placed_extractLsb'_full]
      rw [encode, hstart]
    next => rfl

/-- An EXTRACT word is its sub-fields, the opcode 1 and the two zero bits (30_encoding.md rule R101). -/
theorem encodeExtract_extractLsb' {cw : CmdWord} (hopc : cw.extractLsb' 28 4 = 1#4) (hzero : cw.extractLsb' 16 2 = 0#2) :
    encodeExtract (cw.getLsbD 27) (cw.extractLsb' 22 5) (cw.extractLsb' 18 4) (cw.extractLsb' 0 16) = cw := by
  rw [encodeExtract, ← hopc, getLsbD_eq_extractLsb']
  simp (disch := omega) only [placed_or_placed_extractLsb']
  rw [placed_extractLsb'_of_zero_below _ rfl hzero]
  simp (disch := omega) only [placed_or_placed_extractLsb', placed_extractLsb'_full]

/-- Settles O2: the sub-fields that the decoder takes apart cover the word, but for bits that it has checked. -/
theorem decodeThenEncodeGivesCode : Obligations.DecodeThenEncodeGivesCode := by
  intro c i hdecode
  cases c with
  | record row w =>
    obtain rfl : decodeRow row w = i := Except.ok.inj hdecode
    exact ⟨decodeRow_wellFormed row w, encode_decodeRow row w⟩
  | command cw =>
    obtain ⟨hopc, hzero, rfl⟩ | ⟨hopc, hzero, rfl⟩ | ⟨hopc, hzero, rfl⟩ := (decodeCommand_eq_ok_iff cw i).1 hdecode
    · rw [encode_extractSpelling, encodeExtract_extractLsb' hopc hzero]
      exact ⟨extractSpelling_wellFormed _ _ _ _, rfl⟩
    · refine ⟨rfl, ?_⟩
      rw [encode, ← hopc, getLsbD_eq_extractLsb', placed_or_placed_extractLsb' (lo := 27) (m := 1) cw 4 rfl,
        placed_extractLsb'_of_zero_below _ rfl hzero, placed_extractLsb'_full]
    · refine ⟨rfl, ?_⟩
      rw [encode, ← hopc, placed_extractLsb'_of_zero_below _ rfl hzero, placed_extractLsb'_full]

/-! ### Which command words decode -/

theorem extractLsb'_eq_iff {w n : Nat} (x : BitVec w) (lo : Nat) (v : BitVec n) :
    x.extractLsb' lo n = v ↔ x.toNat / 2 ^ lo % 2 ^ n = v.toNat := by
  rw [BitVec.toNat_eq, BitVec.extractLsb'_toNat, Nat.shiftRight_eq_div_pow]

/-- Settles O4: the opcode and the bits that must be zero, as arithmetic on the word. -/
theorem commandWordsAcceptedExactly : Obligations.CommandWordsAcceptedExactly := by
  intro cw
  have hlt : cw.toNat < 2 ^ 32 := cw.isLt
  simp only [decodeCommand_eq_ok_iff, exists_or, exists_and_left, exists_eq', and_true, extractLsb'_eq_iff,
    BitVec.toNat_ofNat]
  omega

/-- Settles O3. -/
theorem handWrittenWordsDecode : Obligations.HandWrittenWordsDecode := by
  unfold Obligations.HandWrittenWordsDecode
  decide

end Sys2Proof
end

section
/-! The default configuration: its addresses and sub-fields, and what an operation reads through it. -/

namespace Sys2Proof.Machine

/-! ### The addresses (20_memory.md rule R58) -/

theorem Space.holds_iff (sp : Space) (a : Nat) : sp.holds a = true ↔ sp.base ≤ a ∧ a ≤ sp.top := by
  rw [Space.holds, Bool.and_eq_true, decide_eq_true_iff, decide_eq_true_iff]

theorem outOfRange_iff (a : Nat) :
    outOfRange a = true ↔ ¬ (0x2400 ≤ a ∧ a ≤ 0x273F) ∧ ¬ (0x0400 ≤ a ∧ a ≤ 0x073F) := by
  rw [outOfRange, Bool.and_eq_true, Bool.not_eq_true', Bool.not_eq_true', ← Bool.not_eq_true, ← Bool.not_eq_true,
    Space.holds_iff, Space.holds_iff]
  rfl

theorem compensateConfigWf_defaultConfig (ext : Bool) (idSig : Cells 6 Byte) (cfgSig : Cells 8 Byte) :
    compensateConfigWf (defaultConfig ext idSig cfgSig) = true := by
  have h : compensateConfigWf boardConfig = true := by decide +kernel
  exact h

theorem decodeOutOfRange_defaultConfig (ext : Bool) (idSig : Cells 6 Byte) (cfgSig : Cells 8 Byte) :
    decodeOutOfRange (defaultConfig ext idSig cfgSig) = false := by
  have h : decodeOutOfRange boardConfig = false := by decide +kernel
  exact h

theorem compensateOutOfRange_defaultConfig (ext : Bool) (idSig : Cells 6 Byte) (cfgSig : Cells 8 Byte) :
    compensateOutOfRange (defaultConfig ext idSig cfgSig) = false := by
  have h : compensateOutOfRange boardConfig = false := by decide +kernel
  exact h

section
variable {c : Config} (h : hasDefaults c)
include h

theorem hasDefaults.compensateConfigWf_eq : compensateConfigWf c = true :=
  (congrArg compensateConfigWf h).trans (compensateConfigWf_defaultConfig _ _ _)

theorem hasDefaults.configWf_eq : configWf c = true := by
  rw [configWf, h.decodeConfigWf_eq, h.compensateConfigWf_eq, Bool.and_self]

theorem hasDefaults.decodeOutOfRange_eq : decodeOutOfRange c = false :=
  (congrArg decodeOutOfRange h).trans (decodeOutOfRange_defaultConfig _ _ _)

theorem hasDefaults.compensateOutOfRange_eq : compensateOutOfRange c = false :=
  (congrArg compensateOutOfRange h).trans (compensateOutOfRange_defaultConfig _ _ _)

end

/-- Settles O53: the third arm of the accessor, and the default table by evaluation. -/
theorem accessorRanges : Obligations.AccessorRanges :=
  ⟨fun sp m _ ha => memRead_out ha sp m, outOfRange_iff,
    fun _ hdef => ⟨hdef.configWf_eq, hdef.decodeOutOfRange_eq, hdef.compensateOutOfRange_eq⟩⟩

/-! ### The scalar fields -/

theorem scalarFields_default_readable :
    ∀ f ∈ scalarFields defaultFieldTable, 0x2400 ≤ f.addr ∧ f.addr ≤ 0x273F ∧ sliceLegal f.slice = true := by decide

theorem readField_default {f : FieldTuple} (hf : f ∈ scalarFields defaultFieldTable) (m : Memory) :
    readField .ee m f = fieldInt (eeWord m f.addr) f.slice.start f.slice.width f.slice.signed := by
  obtain ⟨hbase, htop, hlegal⟩ := scalarFields_default_readable f hf
  exact readField_ee hbase htop hlegal m

theorem asSigned_fieldInt (w : Word) (start : ℕ) {width : ℕ} (hwidth : 0 < width) :
    asSigned width (fieldInt w start width true) = fieldInt w start width true :=
  storeSigned_fieldInt w start hwidth

/-- A byte of the 2x2 grid is an `s8`, so the grid holds it as it is (41_decode.md rule R153). -/
theorem asSigned_readField_default {f : FieldTuple} (hf : f ∈ scalarFields defaultFieldTable) (hwidth : f.slice.width = 8)
    (hsigned : f.slice.signed = true) (m : Memory) :
    asSigned 8 (readField .ee m f) = fieldInt (eeWord m f.addr) f.slice.start 8 true := by
  rw [readField_default hf, hwidth, hsigned, asSigned_fieldInt _ _ (by decide)]

/-- Settles O25: each temporary is its row of the field that the default table names. -/
theorem decodeReadsScalarFields : Obligations.DecodeReadsScalarFields := by
  intro c m t hdef
  have hread : ∀ f ∈ scalarFields defaultFieldTable, _ := fun f hf => readField_default hf m
  rw [show c = _ from hdef]
  refine ⟨hread defaultFieldTable.remScale (by decide), hread defaultFieldTable.colScale (by decide),
    hread defaultFieldTable.rowScale (by decide), hread defaultFieldTable.aPtatEE (by decide), 
    hread defaultFieldTable.aRemScale (by decide), hread defaultFieldTable.aColScale (by decide),
    hread defaultFieldTable.aRowScale (by decide), congrArg (· + 30) (hread defaultFieldTable.aScaleEE (by decide)),
    hread defaultFieldTable.kvScale (by decide), congrArg (· + 8) (hread defaultFieldTable.kTaScale1EE (by decide)),
    hread defaultFieldTable.kTaScale2 (by decide), hread defaultFieldTable.tgc (by decide),
    hread defaultFieldTable.ksTa (by decide), ?_, ?_, ?_, ?_, ?_, ?_⟩
  · exact readField_ee (f := ⟨0x2411, wholeSigned⟩) (by decide) (by decide) (by decide) m
  · exact readField_ee (f := ⟨0x2421, ⟨0, 16, false⟩⟩) (by decide) (by decide) (by decide) m
  · exact asSigned_readField_default (f := defaultFieldTable.ktaB0) (by decide) rfl rfl m
  · exact asSigned_readField_default (f := defaultFieldTable.ktaB1) (by decide) rfl rfl m
  · exact asSigned_readField_default (f := defaultFieldTable.ktaB2) (by decide) rfl rfl m
  · exact asSigned_readField_default (f := defaultFieldTable.ktaB3) (by decide) rfl rfl m

/-! ### The packed arrays and the per-pixel words -/

theorem sliceLegal_nibbleSlice {k : Nat} (n : Fin k) : sliceLegal (nibbleSlice n) = true := by
  rw [sliceLegal, legalSlice_iff]
  simp only [nibbleSlice]
  omega

/-- Element `n` of a packed array at the default sub-fields (30_encoding.md rule R94). -/
theorem readElements_nibbleSlice_get {k base : Nat} (m : Memory) (hbase : 0x2400 ≤ base) (n : Fin k)
    (htop : base + n.val / 4 ≤ 0x273F) :
    (readElements m base (Cells.ofFn (nibbleSlice (k := k)))).get n =
      fieldInt (eeWord m (base + n.val / 4)) (4 * (n.val % 4)) 4 true := by
  rw [readElements, Cells.get_ofFn, elementField, Cells.get_ofFn]
  exact readField_ee (f := ⟨base + n.val / 4, nibbleSlice n⟩) (by dsimp only; omega) htop (sliceLegal_nibbleSlice n) m

/-- A sub-field of a per-pixel word at the default address (30_encoding.md rule R96). -/
theorem readField_pixel {sl : Slice} (hlegal : sliceLegal sl = true) (m : Memory) (i : Pixel) :
    readField .ee m ⟨0x2440 + i.val, sl⟩ = fieldInt (eeWord m (0x2440 + i.val)) sl.start sl.width sl.signed :=
  readField_ee (f := ⟨0x2440 + i.val, sl⟩) (by dsimp only; omega) (by dsimp only; omega) hlegal m

theorem fieldInt_unsigned (w : Word) (start width : ℕ) :
    fieldInt w start width false = ((w.toNat / 2 ^ start % 2 ^ width : ℕ) : ℤ) := by
  rw [fieldInt, if_neg (by simp)]

theorem sext6_of_lt {v : ℕ} (hv : v < 64) : sext6 v = if v ≤ 31 then (v : ℤ) else (v : ℤ) - 64 := by
  have h6 : (BitVec.ofNat 16 v) = (BitVec.ofNat 6 v).setWidth 16 := by
    apply BitVec.eq_of_toNat_eq
    simp only [BitVec.toNat_ofNat, BitVec.toNat_setWidth]
    omega
  rw [sext6, extractInt_eq_fieldInt (by decide), h6, fieldInt_sext6, BitVec.toNat_ofNat, Nat.mod_eq_of_lt (by omega)]

/-- The alpha remainder of a 4-bit and a 2-bit part (41_decode.md rule R162). -/
theorem alphaRemOf_natCast {lo hi : ℕ} (hlo : lo < 16) (hhi : hi < 4) :
    alphaRemOf lo hi = if hi * 16 + lo ≤ 31 then ((hi * 16 + lo : ℕ) : ℤ) else ((hi * 16 + lo : ℕ) : ℤ) - 64 := by
  have hjoin : assemble 4 lo hi = ((hi * 16 + lo : ℕ) : ℤ) := by
    rw [assemble_eq (by omega) (by omega) (by omega)]
    push_cast
    ring
  simp only [alphaRemOf, hjoin]
  rw [if_pos (by omega), Int.toNat_natCast, sext6_of_lt (by omega)]

/-- The two parts of the alpha remainder are adjacent, so it is a signed 6-bit field of the word. -/
theorem alphaRemOf_fieldInt (w : Word) :
    alphaRemOf (fieldInt w 4 4 false) (fieldInt w 8 2 false) = fieldInt w 4 6 true := by
  rw [fieldInt_unsigned, fieldInt_unsigned, alphaRemOf_natCast (by omega) (by omega)]
  simp only [fieldInt, true_and]
  split <;> split <;> omega

/-- Settles O26: each element and each pixel is read from its own word. -/
theorem decodeReadsArrayFields : Obligations.DecodeReadsArrayFields := by
  intro c m t hdef
  rw [show c = _ from hdef]
  refine ⟨fun n => ?_, fun n => ?_, fun n => ?_, fun n => ?_, fun i => ?_, fun i => ?_, fun i => ?_, fun i => ?_⟩
  · exact readElements_nibbleSlice_get (base := 0x2412) m (by decide) n (by omega)
  · exact readElements_nibbleSlice_get (base := 0x2418) m (by decide) n (by omega)
  · exact readElements_nibbleSlice_get (base := 0x2422) m (by decide) n (by omega)
  · exact readElements_nibbleSlice_get (base := 0x2428) m (by decide) n (by omega)
  · exact (Cells.get_ofFn _ i).trans (readField_pixel (sl := defaultPixTable.kTaIncrement) (by decide) m i)
  · refine (Cells.get_ofFn _ i).trans ?_
    have hlo := readField_pixel (sl := defaultPixTable.alphaLo) (by decide) m i
    have hhi := readField_pixel (sl := defaultPixTable.alphaHi) (by decide) m i
    exact (congrArg₂ alphaRemOf hlo hhi).trans (alphaRemOf_fieldInt _)
  · exact (Cells.get_ofFn _ i).trans (readField_pixel (sl := defaultPixTable.pixOff) (by decide) m i)
  · exact (Cells.get_ofFn _ i).trans (readField_pixel (sl := defaultPixTable.outlier) (by decide) m i)

/-! ### The fields of a frame -/

/-- A whole signed word of a frame is an `s16` (42_compensate.md rules R192, R193, R202). -/
theorem asSigned_readField_wholeSigned {a : ℕ} (hbase : 0x0400 ≤ a) (htop : a ≤ 0x073F) (m : Memory) :
    asSigned 16 (readField .fr m ⟨a, wholeSigned⟩) = fieldInt (frWord m a) 0 16 true := by
  rw [readField_fr (f := ⟨a, wholeSigned⟩) hbase htop rfl]
  exact asSigned_fieldInt _ _ (by decide)

/-- Settles O60: the default sub-field of every frame field is the whole word, signed. -/
theorem compensateReadsFrameFields : Obligations.CompensateReadsFrameFields := by
  intro c m hdef
  rw [show c = _ from hdef]
  exact ⟨asSigned_readField_wholeSigned (a := 0x072A) (by decide) (by decide) m,
    asSigned_readField_wholeSigned (a := 0x0720) (by decide) (by decide) m,
    asSigned_readField_wholeSigned (a := 0x0700) (by decide) (by decide) m,
    asSigned_readField_wholeSigned (a := 0x070A) (by decide) (by decide) m,
    fun i => asSigned_readField_wholeSigned (a := 0x0400 + i.val) (by omega) (by omega) m⟩

end Sys2Proof.Machine
end

section
/-! What every step keeps, and what each instruction can write (10_state.md, 60_exceptions.md). -/

namespace Sys2Proof.Machine

/-! ### The outcomes of a command -/

theorem isCommand_extractSpelling (signed : Bool) (width : BitVec 5) (start : BitVec 4) (word : Word) :
    isCommand (extractSpelling signed width start word) = true := by
  unfold extractSpelling
  split
  next => rfl
  next => split <;> rfl

/-- No command word is a record word. -/
theorem isCommand_of_decodeCommand {cw : CmdWord} {i : Instr} (h : decodeCommand cw = .ok i) : isCommand i = true := by
  obtain ⟨-, -, rfl⟩ | ⟨-, -, rfl⟩ | ⟨-, -, rfl⟩ := (decodeCommand_eq_ok_iff cw i).1 h
  · exact isCommand_extractSpelling _ _ _ _
  · rfl
  · rfl

/-- A command answers OK with a value, raises an error, or commits. -/
theorem exec_command_cases {i : Instr} {s t : State} (hcmd : isCommand i = true) (h : exec i s = .next t) :
    (∃ v, t = s.finish v) ∨ (∃ e d, t = s.raise e d) ∨
      (∃ skip, i = .decode skip ∧ decodeError skip s = none ∧ t = s.runDecode) ∨
      (i = .compensate ∧ compensateError s = none ∧ t = s.runCompensate) := by
  have hextract : ∀ sg w st wd, extractCommand sg w st wd s = t →
      (∃ v, t = s.finish v) ∨ (∃ e d, t = s.raise e d) := by
    rintro sg w st wd rfl
    obtain ⟨-, h⟩ | ⟨-, h⟩ := extractCommand_cases sg w st wd s
    · exact .inl ⟨_, h⟩
    · exact .inr ⟨_, _, h⟩
  have hassoc {p q r : Prop} (hpq : p ∨ q) : p ∨ q ∨ r := hpq.imp_right .inl
  cases i with
  | extract => exact hassoc (hextract _ _ _ _ (Host.Outcome.next.inj h))
  | sext6 => exact hassoc (hextract _ _ _ _ (Host.Outcome.next.inj h))
  | nibble => exact hassoc (hextract _ _ _ _ (Host.Outcome.next.inj h))
  | decode skip =>
    obtain ⟨e, -, -, hraise⟩ | ⟨-, -, hrefused⟩ | ⟨herror, -, hrun⟩ := execDecode_cases skip s
    · exact .inr (.inl ⟨e, _, Host.Outcome.next.inj (h.symm.trans hraise)⟩)
    · cases h.symm.trans hrefused
    · exact .inr (.inr (.inl ⟨skip, rfl, herror, Host.Outcome.next.inj (h.symm.trans hrun)⟩))
  | compensate =>
    obtain ⟨e, -, hraise⟩ | ⟨-, -, hrefused⟩ | ⟨herror, -, hrun⟩ := execCompensate_cases s
    · exact .inr (.inl ⟨e, _, Host.Outcome.next.inj (h.symm.trans hraise)⟩)
    · cases h.symm.trans hrefused
    · exact .inr (.inr (.inr ⟨rfl, herror, Host.Outcome.next.inj (h.symm.trans hrun)⟩))
  | _ => cases hcmd

/-- Settles O51: an error is raised by the one operation `State.raise`, which answers and changes nothing. -/
theorem errorsChangeLastErrOnly : Obligations.ErrorsChangeLastErrOnly := by
  intro i s t r hcmd hexec hresp hcode
  obtain ⟨v, rfl⟩ | ⟨e, d, rfl⟩ | ⟨skip, -, -, rfl⟩ | ⟨-, -, rfl⟩ := exec_command_cases hcmd hexec
  · obtain rfl := Option.some.inj hresp
    exact absurd rfl hcode
  · obtain rfl := Option.some.inj hresp
    exact raise_eq_answered s e d
  · obtain rfl := Option.some.inj hresp
    exact absurd rfl hcode
  · obtain rfl := Option.some.inj hresp
    exact absurd rfl hcode

/-! ### The invariant -/

/-- The part of the invariant that holds within an operation, before its answer. -/
structure State.Steady (s : State) : Prop where
  queue_canonical : ∀ cw m, Request.command cw m ∈ s.inbox → m.wf = true
  mode_is_strap : s.mode.extended = s.cfg.extended
  accessor_in_range : hasDefaults s.cfg → s.status.eAor = false
  offset_in_range : hasDefaults s.cfg → s.status.calValid = true →
    ∀ i : Pixel, -1605632 ≤ (s.cal.offsetRef.get i).toInt ∧ (s.cal.offsetRef.get i).toInt ≤ 1507327

theorem State.Inv.steady {s : State} (h : s.Inv) : s.Steady :=
  ⟨h.queue_canonical, h.mode_is_strap, h.accessor_in_range, h.offset_in_range⟩

theorem ErrCode.bits_le_seven (e : ErrCode) : e.bits.toNat ≤ 7 := by
  cases e <;> decide

/-- The answer restores the invariant: it discards the image and reports the present status and mode. -/
theorem State.Steady.respond_inv {s : State} (h : s.Steady) (e : ErrCode) (v : I32) (d : Cells 16 Word) :
    (s.respond e v d).Inv where
  din_discarded := rfl
  queue_canonical := h.queue_canonical
  mode_is_strap := h.mode_is_strap
  code_produced := e.bits_le_seven
  response_current r hr := by
    obtain rfl := Option.some.inj hr
    exact ⟨rfl, rfl, rfl⟩
  accessor_in_range := h.accessor_in_range
  offset_in_range := h.offset_in_range

theorem State.Inv.accept_steady {s : State} (h : s.Inv) (m : Memory) {r : Request} {rest : List Request}
    (hinbox : s.inbox = r :: rest) : (s.accept m rest).Steady :=
  { h.steady with queue_canonical := fun cw m' hm => h.queue_canonical cw m' (hinbox ▸ List.mem_cons_of_mem _ hm) }

/-- With the default field table every committed `offset_ref` lies in its range (41_decode.md rule R171). -/
theorem offsetRef_range_of_hasDefaults {c : Config} (hdef : hasDefaults c) (N : Numerics) (m : Memory) (t : DecodeTemps)
    (i : Pixel) :
    -1605632 ≤ ((reconstruct N (decodeImage c m t)).offsetRef.get i).toInt ∧
      ((reconstruct N (decodeImage c m t)).offsetRef.get i).toInt ≤ 1507327 := by
  obtain ⟨hrem, hcol, hrow, -, -, -, -, -, -, -, -, -, -, havg, -⟩ := decodeReadsScalarFields c m t hdef
  obtain ⟨hoffRow, hoffCol, -, -, -, -, hpixOff, -⟩ := decodeReadsArrayFields c m t hdef
  have havgRange := fieldInt_signed_range (eeWord m 0x2411) 0 (width := 16) (by decide)
  have hrowRange := fieldInt_signed_range (eeWord m (0x2412 + rowIndex i / 4)) (4 * (rowIndex i % 4)) (width := 4) (by decide)
  have hcolRange := fieldInt_signed_range (eeWord m (0x2418 + colIndex i / 4)) (4 * (colIndex i % 4)) (width := 4) (by decide)
  have hpixRange := fieldInt_signed_range (eeWord m (0x2440 + i)) 10 (width := 6) (by decide)
  have hremScale := fieldInt_unsigned_range (eeWord m 0x2410) 0 4
  have hcolScale := fieldInt_unsigned_range (eeWord m 0x2410) 4 4
  have hrowScale := fieldInt_unsigned_range (eeWord m 0x2410) 8 4
  rw [← havg] at havgRange
  rw [← hoffRow] at hrowRange
  rw [← hoffCol] at hcolRange
  rw [← hpixOff] at hpixRange
  rw [← hrem] at hremScale
  rw [← hcol] at hcolScale
  rw [← hrow] at hrowScale
  have hindex : i.val = 32 * (rowIndex i).val + (colIndex i).val := (Nat.div_add_mod i.val 32).symm
  refine (offsetReferenceFormula N _ i (rowIndex i) (colIndex i) hindex ?_ ?_ ?_ ?_ ?_ ?_ ?_ ?_ ?_ ?_ ?_ ?_ ?_ ?_).2 <;>
    omega

theorem State.Steady.commitCal {s : State} (h : s.Steady) (m : Memory) (t : DecodeTemps) :
    (s.commitCal (decodeImage s.cfg m t)).Steady where
  queue_canonical := h.queue_canonical
  mode_is_strap := h.mode_is_strap
  accessor_in_range hdef := by
    rw [State.commitCal_cfg] at hdef
    simp [h.accessor_in_range hdef, hdef.decodeOutOfRange_eq]
  offset_in_range hdef _ := offsetRef_range_of_hasDefaults hdef _ m t

theorem State.Steady.commitFrame {s : State} (h : s.Steady) : s.commitFrame.Steady where
  queue_canonical := h.queue_canonical
  mode_is_strap := h.mode_is_strap
  accessor_in_range hdef := by
    rw [State.commitFrame_cfg] at hdef
    simp [h.accessor_in_range hdef, hdef.compensateOutOfRange_eq]
  offset_in_range := h.offset_in_range

/-- The state after a reset meets the invariant, whatever the draws are. -/
theorem afterReset_inv (c : Config) (draw : ResetDraw) {rest : List Request}
    (hqueue : ∀ cw m, Request.command cw m ∈ rest → m.wf = true) : (State.afterReset c draw rest).Inv where
  din_discarded := rfl
  queue_canonical := hqueue
  mode_is_strap := rfl
  code_produced := Nat.zero_le 7
  response_current _ hr := by cases hr
  accessor_in_range _ := rfl
  offset_in_range _ hvalid := by cases hvalid

/-- Every command ends in its answer. -/
theorem State.Steady.exec_command_inv {i : Instr} {s t : State} (h : s.Steady) (hcmd : isCommand i = true)
    (hexec : exec i s = .next t) : t.Inv := by
  obtain ⟨v, rfl⟩ | ⟨e, d, rfl⟩ | ⟨skip, -, -, rfl⟩ | ⟨-, -, rfl⟩ := exec_command_cases hcmd hexec
  · exact h.respond_inv _ _ _
  · exact h.respond_inv _ _ _
  · exact (h.commitCal s.din s.work.dec).respond_inv _ _ _
  · exact h.commitFrame.respond_inv _ _ _

/-- Settles O46: a reset establishes the invariant, and every command ends in an answer that restores it. -/
theorem stepKeepsInvariant : Obligations.StepKeepsInvariant := by
  intro s t hinv hstep
  obtain ⟨-, h⟩ | ⟨draw, rest, hinbox, h⟩ | ⟨cw, m, rest, e, hinbox, -, h⟩ |
    ⟨cw, m, rest, i, hinbox, hdecode, h⟩ := step_cases s
  · obtain rfl := Host.Outcome.next.inj (h.symm.trans hstep)
    exact hinv
  · obtain rfl := Host.Outcome.next.inj (h.symm.trans hstep)
    exact afterReset_inv s.cfg draw fun cw m hm =>
      hinv.queue_canonical cw m (hinbox ▸ List.mem_cons_of_mem _ hm)
  · obtain rfl := Host.Outcome.next.inj (h.symm.trans hstep)
    exact (hinv.accept_steady m hinbox).respond_inv _ _ _
  · exact (hinv.accept_steady m hinbox).exec_command_inv (isCommand_of_decodeCommand hdecode) (h.symm.trans hstep)

/-- Settles O47. -/
theorem resetMeetsInvariant : Obligations.ResetMeetsInvariant :=
  afterReset_inv boardConfig freeDraw fun _ _ hm => by cases hm

end Sys2Proof.Machine
end

section
/-! What a step reads, and what it can write (10_state.md, 20_memory.md rule R66, 60_exceptions.md). -/

namespace Sys2Proof.Machine

/-! ### The four kinds of step -/

section
variable {s : State} {rest : List Request}

theorem step_of_idle (h : s.inbox = []) : step s = .next s := by
  rw [step, h]

theorem step_of_reset {draw : ResetDraw} (h : s.inbox = .reset draw :: rest) : step s = .next (s.applyReset draw rest) := by
  rw [step, h]

theorem step_of_decoded {cw : CmdWord} {m : Memory} {i : Instr} (h : s.inbox = .command cw m :: rest)
    (hdecode : decodeCommand cw = .ok i) : step s = exec i (s.accept m rest) := by
  rw [step, h]
  simp only [hdecode]

theorem step_of_rejected {cw : CmdWord} {m : Memory} {e : Reject} (h : s.inbox = .command cw m :: rest)
    (hdecode : decodeCommand cw = .error e) : step s = .next (s.accept m rest).rejectCommand := by
  rw [step, h]
  simp only [hdecode]

end

/-- Settles O5. -/
theorem stepRunsDecodedInstruction : Obligations.StepRunsDecodedInstruction := fun _ _ _ _ _ => step_of_decoded

/-- Settles O6: the rejection is `State.raise`, which discards the byte string that the step had accepted. -/
theorem illegalCommandIsAnswered : Obligations.IllegalCommandIsAnswered := fun _ _ _ _ _ hinbox hdecode =>
  (step_of_rejected hinbox hdecode).trans rfl

/-- Settles O7. -/
theorem readyAndResetSteps : Obligations.ReadyAndResetSteps := ⟨fun _ => step_of_idle, fun _ _ _ => step_of_reset⟩

/-- Settles O8. -/
theorem resetStateValues : Obligations.ResetStateValues := ⟨rfl, rfl, rfl, rfl, rfl⟩

/-! ### What an instruction can write -/

/-- Settles O50: of the six kinds of next state only a commit writes results. -/
theorem writersOfResults : Obligations.WritersOfResults := by
  intro i s t hexec
  obtain ⟨v, rfl⟩ | ⟨e, d, rfl⟩ | ⟨skip, rfl, -, -, rfl⟩ | ⟨rfl, -, -, rfl⟩ | ⟨f, rfl⟩ | ⟨f, rfl⟩ :=
    exec_next_cases hexec
  · simp
  · simp
  · cases skip <;> simp
  · simp
  · simp
  · simp

/-- No instruction writes the configuration or the mode, or clears a sticky flag. -/
theorem exec_keeps_cfg_mode_flags {i : Instr} {s t : State} (hexec : exec i s = .next t) :
    t.cfg = s.cfg ∧ t.mode = s.mode ∧ (s.status.calValid = true → t.status.calValid = true) ∧
      (s.status.wTgc = true → t.status.wTgc = true) ∧ (s.status.eAor = true → t.status.eAor = true) := by
  obtain ⟨v, rfl⟩ | ⟨e, d, rfl⟩ | ⟨skip, -, -, -, rfl⟩ | ⟨-, -, -, rfl⟩ | ⟨f, rfl⟩ | ⟨f, rfl⟩ :=
    exec_next_cases hexec
  · simp
  · simp
  · simp +contextual
  · simp +contextual
  · simp
  · simp

theorem resetPending_eq_true {s : State} {draw : ResetDraw} {rest : List Request} (h : s.inbox = .reset draw :: rest) :
    s.resetPending = true := by
  rw [State.resetPending, h]

/-- Settles O49: only the reset step leaves a state that is not made by an instruction or a rejection. -/
theorem onlyResetClears : Obligations.OnlyResetClears := by
  intro s t hstep
  obtain ⟨-, h⟩ | ⟨draw, rest, hinbox, h⟩ | ⟨cw, m, rest, e, -, -, h⟩ | ⟨cw, m, rest, i, -, -, h⟩ :=
    step_cases s
  · obtain rfl := Host.Outcome.next.inj (h.symm.trans hstep)
    simp
  · obtain rfl := Host.Outcome.next.inj (h.symm.trans hstep)
    simp [resetPending_eq_true hinbox]
  · obtain rfl := Host.Outcome.next.inj (h.symm.trans hstep)
    simp
  · obtain ⟨hcfg, hkept⟩ := exec_keeps_cfg_mode_flags (h.symm.trans hstep)
    exact ⟨hcfg, fun _ => hkept⟩

theorem decodeError_of_calValid {s : State} (h : s.status.calValid = true) (skip : Bool) :
    decodeError skip s = some .calLocked := by
  simp [decodeError, decodeEarlyError, h]

/-- A committed calibration passes no test of DECODE, the only instruction that writes it. -/
theorem exec_keeps_cal {i : Instr} {s t : State} (hvalid : s.status.calValid = true) (hexec : exec i s = .next t) :
    t.cal = s.cal ∧ t.status.calValid = true := by
  obtain ⟨v, rfl⟩ | ⟨e, d, rfl⟩ | ⟨skip, -, hpass, -, rfl⟩ | ⟨-, -, -, rfl⟩ | ⟨f, rfl⟩ | ⟨f, rfl⟩ :=
    exec_next_cases hexec
  · exact ⟨rfl, hvalid⟩
  · exact ⟨rfl, hvalid⟩
  · rw [decodeError_of_calValid hvalid] at hpass
    cases hpass
  · exact ⟨rfl, hvalid⟩
  · exact ⟨rfl, hvalid⟩
  · exact ⟨rfl, hvalid⟩

/-- Settles O48. -/
theorem calibrationIsLocked : Obligations.CalibrationIsLocked := by
  intro s t hvalid hreset hstep
  obtain ⟨-, h⟩ | ⟨draw, rest, hinbox, -⟩ | ⟨cw, m, rest, e, -, -, h⟩ | ⟨cw, m, rest, i, -, -, h⟩ :=
    step_cases s
  · obtain rfl := Host.Outcome.next.inj (h.symm.trans hstep)
    exact ⟨rfl, hvalid⟩
  · rw [resetPending_eq_true hinbox] at hreset
    cases hreset
  · obtain rfl := Host.Outcome.next.inj (h.symm.trans hstep)
    exact ⟨rfl, hvalid⟩
  · exact exec_keeps_cal (s := s.accept m rest) hvalid (h.symm.trans hstep)

/-! ### Progress -/

/-- With a well-formed configuration every instruction answers. -/
theorem exec_answers {s : State} (hwf : configWf s.cfg = true) (i : Instr) : ∃ t, exec i s = .next t := by
  obtain ⟨hdecode, hcompensate⟩ := Bool.and_eq_true_iff.1 hwf
  cases i with
  | decode skip =>
    obtain ⟨e, -, -, h⟩ | ⟨-, hbad, -⟩ | ⟨-, -, h⟩ := execDecode_cases skip s
    · exact ⟨_, h⟩
    · simp [hdecode] at hbad
    · exact ⟨_, h⟩
  | compensate =>
    obtain ⟨e, -, h⟩ | ⟨-, hbad, -⟩ | ⟨-, -, h⟩ := execCompensate_cases s
    · exact ⟨_, h⟩
    · simp [hcompensate] at hbad
    · exact ⟨_, h⟩
  | _ => exact ⟨_, rfl⟩

theorem step_answers {s : State} (hwf : configWf s.cfg = true) : ∃ t, step s = .next t := by
  obtain ⟨-, h⟩ | ⟨_, _, -, h⟩ | ⟨_, _, _, _, -, -, h⟩ | ⟨_, m, rest, i, -, -, h⟩ := step_cases s
  · exact ⟨_, h⟩
  · exact ⟨_, h⟩
  · exact ⟨_, h⟩
  · rw [h]
    exact exec_answers (s := s.accept m rest) hwf i

/-! ### DECODE and COMPENSATE by their tests: the converse of `execDecode_cases` and `execCompensate_cases` -/

section
variable {skip : Bool} {s : State} {e : ErrCode}

theorem exec_decode_of_error (herror : decodeError skip s = some e)
    (h : decodeEarlyError s = some e ∨ decodeConfigWf s.cfg = true) :
    exec (.decode skip) s = .next (s.raise e (decodeDiag s e)) := by
  obtain ⟨e', herror', -, hraise⟩ | ⟨hearly, hbad, -⟩ | ⟨hnone, -, -⟩ := execDecode_cases skip s
  · obtain rfl := Option.some.inj (herror.symm.trans herror')
    exact hraise
  · simp [hearly, hbad] at h
  · simp [herror] at hnone

theorem exec_decode_of_illFormed (hearly : decodeEarlyError s = none) (hbad : decodeConfigWf s.cfg = false) :
    exec (.decode skip) s = .refused .illFormedConfig := by
  simp only [exec_decode, execDecode, hearly, hbad, Bool.false_eq_true, if_false]

theorem exec_decode_of_no_error (hnone : decodeError skip s = none) (hwf : decodeConfigWf s.cfg = true) :
    exec (.decode skip) s = .next s.runDecode := by
  obtain ⟨e', herror, -, -⟩ | ⟨-, hbad, -⟩ | ⟨-, -, hrun⟩ := execDecode_cases skip s
  · simp [hnone] at herror
  · simp [hwf] at hbad
  · exact hrun

theorem exec_compensate (s : State) : exec .compensate s = execCompensate s := rfl

theorem exec_compensate_of_error (herror : compensateError s = some e) :
    exec .compensate s = .next (s.raise e noDiag) := by
  simp only [exec_compensate, execCompensate, herror]

theorem exec_compensate_of_illFormed (hnone : compensateError s = none) (hbad : compensateConfigWf s.cfg = false) :
    exec .compensate s = .refused .illFormedConfig := by
  simp only [exec_compensate, execCompensate, hnone, hbad, Bool.false_eq_true, if_false]

theorem exec_compensate_of_no_error (hnone : compensateError s = none) (hwf : compensateConfigWf s.cfg = true) :
    exec .compensate s = .next s.runCompensate := by
  simp only [exec_compensate, execCompensate, hnone, hwf, if_true]

end

theorem compensateError_eq_none {s : State} (hvalid : s.status.calValid = true)
    (hlen : s.din.len = if s.mode.extended then 1728 else 1664) : compensateError s = none := by
  simp [compensateError, frameBytes, hvalid, hlen]

/-- Settles O52: DECODE and COMPENSATE are the only instructions that can be refused, by the configuration alone. -/
theorem stepAnswersUnlessConfigIllFormed : Obligations.StepAnswersUnlessConfigIllFormed :=
  ⟨fun _ => step_answers, fun _ _ hvalid hlen => exec_decode_of_illFormed (decodeEarlyError_eq_none hvalid hlen),
    fun _ hvalid hlen => exec_compensate_of_illFormed (compensateError_eq_none hvalid hlen)⟩

end Sys2Proof.Machine
end

section
/-! The default `NUMERICS` on finite values (92_eei_decisions.md D16): every operation is the exact result rounded once. -/

namespace Sys2Proof.Machine

/-- Settles O55. -/
theorem integersAndScalesAreExact : Obligations.IntegersAndScalesAreExact := fun _ hn =>
  ⟨f64Value_ofInt hn, fun _ h0 h60 => f64Value_div_pow2 hn h0 h60⟩

/-! ### The pattern with its sign turned -/

theorem neg_eq_msb (x : F64) : F64.neg x = x.msb := (BitVec.msb_eq_decide x).symm

@[simp] theorem neg_negate (x : F64) : F64.neg (F64.negate x) = !F64.neg x := by
  rw [neg_eq_msb, neg_eq_msb, F64.negate, BitVec.msb_xor, show (0x8000000000000000#64).msb = true by decide,
    Bool.xor_true]

theorem negate_toNat_mod (x : F64) : (F64.negate x).toNat % 2 ^ 63 = x.toNat % 2 ^ 63 := by
  rw [F64.negate, BitVec.toNat_xor, Nat.xor_mod_two_pow, show (0x8000000000000000#64).toNat % 2 ^ 63 = 0 by decide,
    Nat.xor_zero]

@[simp] theorem expField_negate (x : F64) : F64.expField (F64.negate x) = F64.expField x := by
  have h := negate_toNat_mod x
  unfold F64.expField
  omega

@[simp] theorem frac_negate (x : F64) : F64.frac (F64.negate x) = F64.frac x := by
  have h := negate_toNat_mod x
  unfold F64.frac
  omega

@[simp] theorem isInf_negate (x : F64) : F64.isInf (F64.negate x) = F64.isInf x := by
  simp [F64.isInf]

@[simp] theorem isFinite_negate (x : F64) : F64.isFinite (F64.negate x) = F64.isFinite x := by
  simp [F64.isFinite]

@[simp] theorem magOf_negate (x : F64) : magOf (F64.negate x) = magOf x := by
  simp [magOf, F64.mant, F64.scale]

theorem signOf_not (b : Bool) : signOf (!b) = -signOf b := by
  cases b <;> simp [signOf]

theorem f64Value_negate {x : F64} {a : ℚ} (h : f64Value x = some a) : f64Value (F64.negate x) = some (-a) := by
  obtain ⟨hfin, rfl⟩ := f64Value_eq_some.1 h
  rw [f64Value_eq_some, isFinite_negate, neg_negate, magOf_negate, signOf_not, neg_mul]
  exact ⟨hfin, rfl⟩

/-! ### One rounding of an exact result -/

/-- The pattern is the one rounding of the nonzero number `v`. -/
def IsRounding (v : ℚ) (r : F64) : Prop :=
  ∃ n d : ℕ, 0 < n ∧ 0 < d ∧ |v| = (n : ℚ) / d ∧ r = F64.ofRat (decide (v < 0)) n d

theorem isRounding_ofScaled {v : ℚ} {n d : ℕ} {e : ℤ} (hn : 0 < n) (hd : 0 < d)
    (h : |v| = (n : ℚ) / d * (2 : ℚ) ^ e) :
    IsRounding v (F64.ofScaled (decide (v < 0)) n d e) :=
  ⟨n * 2 ^ e.toNat, d * 2 ^ (-e).toNat, by positivity, by positivity, by rw [scaled_ratio, h], rfl⟩

/-- The sign bit of a product or quotient of nonzero values. -/
theorem decide_signOf_mul_neg (b : Bool) {m : ℚ} (hm : 0 < m) : decide (signOf b * m < 0) = b := by
  cases b
  · simp [signOf, hm.le]
  · simp [signOf, hm]

theorem isRounding_signed {b : Bool} {n d : ℕ} {e : ℤ} {m : ℚ} (hn : 0 < n) (hd : 0 < d)
    (h : m = (n : ℚ) / d * (2 : ℚ) ^ e) : IsRounding (signOf b * m) (F64.ofScaled b n d e) := by
  have hm : 0 < m := by rw [h]; positivity
  have habs : |signOf b * m| = (n : ℚ) / d * (2 : ℚ) ^ e := by rw [abs_mul, abs_signOf, one_mul, abs_of_pos hm, h]
  have hround := isRounding_ofScaled hn hd habs
  rwa [decide_signOf_mul_neg b hm] at hround

/-! ### Sums and differences -/

/-- The significand at a smaller scale stands for the same number. -/
theorem signedMant_mul_two_zpow {x : F64} {e : ℕ} (he : e ≤ F64.scale x) :
    (F64.signedMant x e : ℚ) * (2 : ℚ) ^ ((e : ℤ) - 1075) = signOf (F64.neg x) * magOf x := by
  obtain ⟨k, hk⟩ := Nat.exists_eq_add_of_le he
  have hexp : (F64.scale x : ℤ) - 1075 = k + ((e : ℤ) - 1075) := by omega
  have hsub : F64.scale x - e = k := by omega
  rw [F64.signedMant, magOf, hexp, hsub, zpow_add₀ two_ne_zero, zpow_natCast]
  push_cast
  rw [mul_assoc, mul_assoc]
  rfl

/-- The exact sum of two finite values at the smaller of their scales. -/
def sumMant (x y : F64) : ℤ :=
  F64.signedMant x (min (F64.scale x) (F64.scale y)) + F64.signedMant y (min (F64.scale x) (F64.scale y))

theorem sumMant_mul_two_zpow {x y : F64} {a b : ℚ} (hx : f64Value x = some a) (hy : f64Value y = some b) :
    (sumMant x y : ℚ) * (2 : ℚ) ^ (((min (F64.scale x) (F64.scale y) : ℕ) : ℤ) - 1075) = a + b := by
  obtain ⟨-, rfl⟩ := f64Value_eq_some.1 hx
  obtain ⟨-, rfl⟩ := f64Value_eq_some.1 hy
  rw [sumMant, Int.cast_add, add_mul, signedMant_mul_two_zpow (min_le_left _ _), signedMant_mul_two_zpow (min_le_right _ _)]

theorem add_of_isFinite {x y : F64} (hx : F64.isFinite x = true) (hy : F64.isFinite y = true) :
    F64.add x y = if sumMant x y = 0 then F64.zeroSum x y
      else F64.ofScaled (decide (sumMant x y < 0)) (sumMant x y).natAbs 1
        (((min (F64.scale x) (F64.scale y) : ℕ) : ℤ) - 1075) := by
  obtain ⟨hxnan, hxinf⟩ := F64.not_nan_of_isFinite hx
  obtain ⟨hynan, hyinf⟩ := F64.not_nan_of_isFinite hy
  simp only [F64.add, hxnan, hxinf, hynan, hyinf, Bool.or_self, Bool.false_eq_true, if_false]
  rfl

section
variable {x y : F64} {a b : ℚ} (hx : f64Value x = some a) (hy : f64Value y = some b)
include hx hy

theorem isRounding_add (h : a + b ≠ 0) : IsRounding (a + b) (F64.add x y) := by
  have hsum := sumMant_mul_two_zpow hx hy
  rw [add_of_isFinite (f64Value_eq_some.1 hx).1 (f64Value_eq_some.1 hy).1]
  generalize sumMant x y = n at hsum
  generalize ((min (F64.scale x) (F64.scale y) : ℕ) : ℤ) - 1075 = e at hsum
  have hpos : (0 : ℚ) < 2 ^ e := by positivity
  have hn : n ≠ 0 := by
    rintro rfl
    exact h (by rw [← hsum, Int.cast_zero, zero_mul])
  have hsign : decide (n < 0) = decide (a + b < 0) := by
    rw [decide_eq_decide, ← hsum, ← not_le, ← not_le, mul_nonneg_iff_of_pos_right hpos, Int.cast_nonneg_iff]
  rw [if_neg hn, hsign]
  refine isRounding_ofScaled (Int.natAbs_pos.2 hn) one_pos ?_
  rw [← hsum, abs_mul, abs_of_pos hpos, Nat.cast_natAbs, Int.cast_abs, Nat.cast_one, div_one]

theorem f64Value_add_of_eq_zero (h : a + b = 0) : f64Value (F64.add x y) = some 0 := by
  have hsum := sumMant_mul_two_zpow hx hy
  have hzero : sumMant x y = 0 := by
    rw [h, mul_eq_zero_iff_right (by positivity)] at hsum
    exact_mod_cast hsum
  rw [add_of_isFinite (f64Value_eq_some.1 hx).1 (f64Value_eq_some.1 hy).1, if_pos hzero]
  exact f64Value_zero _

theorem sub_eq_add_negate : F64.sub x y = F64.add x (F64.negate y) := by
  obtain ⟨hxnan, hxinf⟩ := F64.not_nan_of_isFinite (f64Value_eq_some.1 hx).1
  obtain ⟨hynan, hyinf⟩ := F64.not_nan_of_isFinite (f64Value_eq_some.1 hy).1
  simp [F64.sub, hxnan, hxinf, hynan]

/-! ### Products and quotients -/

theorem isRounding_mul (h : a * b ≠ 0) : IsRounding (a * b) (F64.mul x y) := by
  obtain ⟨ha, hb⟩ := mul_ne_zero_iff.1 h
  have hxzero := isZero_eq_false_of_f64Value hx ha
  have hyzero := isZero_eq_false_of_f64Value hy hb
  obtain ⟨hxfin, rfl⟩ := f64Value_eq_some.1 hx
  obtain ⟨hyfin, rfl⟩ := f64Value_eq_some.1 hy
  have hxmant := mant_pos_of_not_isZero hxzero
  have hymant := mant_pos_of_not_isZero hyzero
  rw [mul_of_not_isZero hxfin hxzero hyfin hyzero, mul_mul_mul_comm, ← signOf_xor_eq_mul]
  refine isRounding_signed (by positivity) one_pos ?_
  have hexp : (F64.scale x : ℤ) + F64.scale y - 2150 = (F64.scale x - 1075) + (F64.scale y - 1075) := by ring
  rw [magOf, magOf, mul_mul_mul_comm, ← zpow_add₀ two_ne_zero, hexp, Nat.cast_mul, Nat.cast_one, div_one]

theorem isRounding_div (h : a / b ≠ 0) : IsRounding (a / b) (F64.div x y) := by
  obtain ⟨ha, hb⟩ := div_ne_zero_iff.1 h
  have hxzero := isZero_eq_false_of_f64Value hx ha
  have hyzero := isZero_eq_false_of_f64Value hy hb
  obtain ⟨hxfin, rfl⟩ := f64Value_eq_some.1 hx
  obtain ⟨hyfin, rfl⟩ := f64Value_eq_some.1 hy
  rw [div_of_not_isZero hxfin hxzero hyfin hyzero, mul_div_mul_comm, ← signOf_xor]
  refine isRounding_signed (mant_pos_of_not_isZero hxzero) (mant_pos_of_not_isZero hyzero) ?_
  rw [magOf, magOf, mul_div_mul_comm, ← zpow_sub₀ two_ne_zero, sub_sub_sub_cancel_right]

end

theorem isZero_of_f64Value_eq_zero {x : F64} (h : f64Value x = some 0) : F64.isZero x = true := by
  obtain ⟨-, hval⟩ := f64Value_eq_some.1 h
  by_contra hzero
  have hmag := magOf_pos (Bool.eq_false_iff.2 hzero)
  have habs : |signOf (F64.neg x) * magOf x| = magOf x := by rw [abs_mul, abs_signOf, one_mul, abs_of_pos hmag]
  rw [hval, abs_zero] at habs
  exact hmag.ne habs

/-- Settles O58: each operation forms its exact result as a ratio of integers times a power of two. -/
theorem arithmeticRoundsExactResultOnce : Obligations.ArithmeticRoundsExactResultOnce := by
  intro x y a b hx hy
  have hneg := f64Value_negate hy
  have hxfin := (f64Value_eq_some.1 hx).1
  have hyfin := (f64Value_eq_some.1 hy).1
  rw [sub_eq_add_negate hx hy, sub_eq_add_neg a b]
  refine ⟨isRounding_add hx hy, isRounding_add hx hneg, isRounding_mul hx hy, isRounding_div hx hy,
    f64Value_add_of_eq_zero hx hy, f64Value_add_of_eq_zero hx hneg, fun h => ?_, fun ha hb => ?_⟩
  · have hzero : F64.isZero x = true ∨ F64.isZero y = true := by
      obtain rfl | rfl := mul_eq_zero.1 h
      · exact .inl (isZero_of_f64Value_eq_zero hx)
      · exact .inr (isZero_of_f64Value_eq_zero hy)
    rw [mul_of_isZero hxfin hyfin hzero, f64Value_zero]
  · subst ha
    rw [div_of_isZero (isZero_of_f64Value_eq_zero hx) hyfin (isZero_eq_false_of_f64Value hy hb), f64Value_zero]

/-- A rounding of a representable number is that number. -/
theorem IsRounding.f64Value_eq {v : ℚ} {r : F64} (h : IsRounding v r) (hrep : Representable v) : f64Value r = some v := by
  obtain ⟨n, d, hn, hd, habs, rfl⟩ := h
  have hratio : Representable ((n : ℚ) / d) := by
    rw [← habs]
    simpa [Representable] using hrep
  rw [f64Value_ofRat _ hn hd hratio, ← habs, signOf_decide_mul_abs]

end Sys2Proof.Machine
end

section
/-! The comparison and the special results of the default `NUMERICS` (42_compensate.md rule R207, 43_track.md rule R225). -/

namespace Sys2Proof.Machine

/-! ### The order of the patterns -/

/-- The lower 63 bits of a pattern, which order the magnitudes. -/
def lowBits (x : F64) : ℕ := x.toNat % 2 ^ 63

theorem key_eq (x : F64) : F64.key x = if F64.neg x then -(lowBits x : ℤ) else lowBits x := rfl

/-- The lower bits are the significand and the scale above it. -/
theorem lowBits_eq (x : F64) : lowBits x + 2 ^ 52 = F64.scale x * 2 ^ 52 + F64.mant x := by
  unfold lowBits F64.scale F64.mant F64.expField F64.frac
  split <;> omega

/-- One more at the scale outweighs every significand. -/
theorem magOf_lt_of_scale_lt {x y : F64} (h : F64.scale x < F64.scale y) (hx : 1 ≤ F64.scale x) :
    magOf x < magOf y := by
  have hlead : ((2 ^ 52 : ℕ) : ℚ) ≤ F64.mant y := by exact_mod_cast two_pow_le_mant (x := y) (by omega)
  have hnarrow : (F64.mant x : ℚ) < (2 ^ 53 : ℕ) := by exact_mod_cast mant_lt x
  calc magOf x < (2 ^ 53 : ℕ) * (2 : ℚ) ^ ((F64.scale x : ℤ) - 1075) := by
        unfold magOf
        gcongr
    _ = (2 ^ 52 : ℕ) * (2 : ℚ) ^ ((F64.scale x : ℤ) + 1 - 1075) := by
        rw [show (F64.scale x : ℤ) + 1 - 1075 = (F64.scale x - 1075) + 1 by ring, zpow_add_one₀ two_ne_zero]
        push_cast
        ring
    _ ≤ (2 ^ 52 : ℕ) * (2 : ℚ) ^ ((F64.scale y : ℤ) - 1075) := by
        gcongr
        · exact one_le_two
        · omega
    _ ≤ magOf y := by
        unfold magOf
        gcongr

theorem magOf_lt_iff_of_scale_eq {x y : F64} (h : F64.scale x = F64.scale y) :
    magOf x < magOf y ↔ F64.mant x < F64.mant y := by
  rw [magOf, magOf, h, mul_lt_mul_iff_left₀ (by positivity), Nat.cast_lt]

/-- Magnitudes are ordered as the lower bits. -/
theorem magOf_lt_iff (x y : F64) : magOf x < magOf y ↔ lowBits x < lowBits y := by
  have hxbits := lowBits_eq x
  have hybits := lowBits_eq y
  have hxmant := mant_lt x
  have hymant := mant_lt y
  have hscale : ∀ z : F64, 1 ≤ F64.scale z := fun z => le_max_right _ _
  obtain hlt | heq | hgt := lt_trichotomy (F64.scale x) (F64.scale y)
  · have hlead := two_pow_le_mant (x := y) (by have := hscale x; omega)
    exact iff_of_true (magOf_lt_of_scale_lt hlt (hscale x)) (by omega)
  · rw [magOf_lt_iff_of_scale_eq heq]
    omega
  · have hlead := two_pow_le_mant (x := x) (by have := hscale y; omega)
    exact iff_of_false (magOf_lt_of_scale_lt hgt (hscale y)).le.not_gt (by omega)

theorem magOf_nonneg (x : F64) : 0 ≤ magOf x := by
  unfold magOf
  positivity

/-- A magnitude is positive as the lower bits are. -/
theorem magOf_pos_iff (x : F64) : 0 < magOf x ↔ 0 < lowBits x := by
  have h := magOf_lt_iff (F64.zero false) x
  rwa [magOf_of_isZero (isZero_zero false), show lowBits (F64.zero false) = 0 by decide] at h

theorem lt_of_not_isNaN {x y : F64} (hx : F64.isNaN x = false) (hy : F64.isNaN y = false) :
    F64.lt x y = decide (F64.key x < F64.key y) := by
  simp [F64.lt, hx, hy]

/-- The keys are ordered as the numbers (43_track.md rule R225). -/
theorem key_lt_iff (x y : F64) :
    F64.key x < F64.key y ↔ signOf (F64.neg x) * magOf x < signOf (F64.neg y) * magOf y := by
  have hlt := magOf_lt_iff x y
  have hgt := magOf_lt_iff y x
  have hxpos := magOf_pos_iff x
  have hypos := magOf_pos_iff y
  have hx0 := magOf_nonneg x
  have hy0 := magOf_nonneg y
  rw [key_eq, key_eq]
  cases F64.neg x <;> cases F64.neg y <;> simp only [signOf, Bool.false_eq_true, if_true, if_false, one_mul, neg_one_mul]
  · rw [hlt, Nat.cast_lt]
  · exact iff_of_false (by omega) (by linarith)
  · constructor
    · intro h
      obtain h | h : 0 < lowBits x ∨ 0 < lowBits y := by omega
      · linarith [hxpos.2 h]
      · linarith [hypos.2 h]
    · intro h
      by_contra hkey
      have hx : ¬ 0 < magOf x := by rw [hxpos]; omega
      have hy : ¬ 0 < magOf y := by rw [hypos]; omega
      linarith
  · rw [neg_lt_neg_iff, neg_lt_neg_iff, hgt, Nat.cast_lt]

theorem isInf_lowBits {x : F64} (h : F64.isInf x = true) : lowBits x = 2047 * 2 ^ 52 := by
  rw [F64.isInf, Bool.and_eq_true, decide_eq_true_iff, decide_eq_true_iff, F64.expField, F64.frac] at h
  unfold lowBits
  omega

theorem isFinite_lowBits {x : F64} (h : F64.isFinite x = true) : lowBits x < 2047 * 2 ^ 52 := by
  rw [F64.isFinite, decide_eq_true_iff, F64.expField] at h
  unfold lowBits
  omega

/-- An infinity has the largest key of its sign. -/
theorem lt_of_isInf_of_isFinite {x y : F64} (hx : F64.isInf x = true) (hy : F64.isFinite y = true) :
    F64.lt x y = F64.neg x ∧ F64.lt y x = !F64.neg x := by
  obtain ⟨hxnan, -⟩ := F64.not_nan_of_isInf hx
  obtain ⟨hynan, -⟩ := F64.not_nan_of_isFinite hy
  have hxbits := isInf_lowBits hx
  have hybits := isFinite_lowBits hy
  rw [lt_of_not_isNaN hxnan hynan, lt_of_not_isNaN hynan hxnan, key_eq, key_eq, hxbits]
  cases F64.neg x <;> cases F64.neg y <;> simp <;> omega

theorem lt_of_isInf_of_isInf {x y : F64} (hx : F64.isInf x = true) (hy : F64.isInf y = true) :
    F64.lt x y = true ↔ F64.neg x = true ∧ F64.neg y = false := by
  rw [lt_of_not_isNaN (F64.not_nan_of_isInf hx).1 (F64.not_nan_of_isInf hy).1, key_eq, key_eq, isInf_lowBits hx,
    isInf_lowBits hy]
  cases F64.neg x <;> cases F64.neg y <;> decide

/-- Settles O57: the lower 63 bits order the magnitudes, and the sign turns the order round. -/
theorem comparisonIsNumeric : Obligations.ComparisonIsNumeric := by
  refine ⟨fun x y a b hx hy => ?_, fun x y => lt_of_isInf_of_isFinite, fun x y => lt_of_isInf_of_isInf⟩
  obtain ⟨hxfin, rfl⟩ := f64Value_eq_some.1 hx
  obtain ⟨hyfin, rfl⟩ := f64Value_eq_some.1 hy
  rw [lt_of_not_isNaN (F64.not_nan_of_isFinite hxfin).1 (F64.not_nan_of_isFinite hyfin).1, decide_eq_true_iff, key_lt_iff]

/-! ### Special operands -/

section
variable {x y : F64}

/-- A NaN propagates and compares false. -/
theorem nan_propagates (h : F64.isNaN x = true ∨ F64.isNaN y = true) :
    F64.isNaN (F64.add x y) = true ∧ F64.isNaN (F64.sub x y) = true ∧ F64.isNaN (F64.mul x y) = true ∧
      F64.isNaN (F64.div x y) = true ∧ F64.isNaN (F64.pow x y) = true ∧ F64.lt x y = false := by
  have hor : (F64.isNaN x || F64.isNaN y) = true := by simpa using h
  have hlt : F64.lt x y = false := by
    obtain h | h := h <;> simp [F64.lt, h]
  simp [F64.add, F64.sub, F64.mul, F64.div, F64.pow, hor, hlt]

theorem div_zero_of_not_isZero (hnan : F64.isNaN x = false) (hx : F64.isZero x = false) (hy : F64.isZero y = true) :
    F64.div x y = F64.inf (F64.neg x != F64.neg y) := by
  obtain ⟨hynan, hyinf⟩ := F64.not_nan_of_isZero hy
  simp [F64.div, hnan, hx, hy, hynan, hyinf]

theorem div_zero_zero (hx : F64.isZero x = true) (hy : F64.isZero y = true) : F64.isNaN (F64.div x y) = true := by
  obtain ⟨hxnan, hxinf⟩ := F64.not_nan_of_isZero hx
  obtain ⟨hynan, hyinf⟩ := F64.not_nan_of_isZero hy
  simp [F64.div, hxnan, hxinf, hynan, hyinf, hx, hy]

theorem mul_inf_zero (hx : F64.isInf x = true) (hy : F64.isZero y = true) :
    F64.isNaN (F64.mul x y) = true ∧ F64.isNaN (F64.mul y x) = true := by
  obtain ⟨hxnan, -⟩ := F64.not_nan_of_isInf hx
  obtain ⟨hynan, -⟩ := F64.not_nan_of_isZero hy
  simp [F64.mul, hxnan, hynan, hx, hy]

theorem div_inf_inf (hx : F64.isInf x = true) (hy : F64.isInf y = true) : F64.isNaN (F64.div x y) = true := by
  obtain ⟨hxnan, -⟩ := F64.not_nan_of_isInf hx
  obtain ⟨hynan, -⟩ := F64.not_nan_of_isInf hy
  simp [F64.div, hxnan, hynan, hx, hy]

/-- Infinities of one sign: the sum is that infinity, the difference a NaN. -/
theorem add_sub_inf_same (hx : F64.isInf x = true) (hy : F64.isInf y = true) (hsign : F64.neg x = F64.neg y) :
    F64.isNaN (F64.sub x y) = true ∧ F64.add x y = F64.inf (F64.neg x) := by
  obtain ⟨hxnan, -⟩ := F64.not_nan_of_isInf hx
  obtain ⟨hynan, -⟩ := F64.not_nan_of_isInf hy
  constructor
  · simp [F64.sub, hxnan, hynan, hx, hy, hsign]
  · rw [← F64.eq_inf hx]
    simp [F64.add, hxnan, hynan, hx, hsign]

/-- Infinities of two signs: the sum is a NaN, the difference the first one. -/
theorem add_sub_inf_opposite (hx : F64.isInf x = true) (hy : F64.isInf y = true) (hsign : F64.neg x ≠ F64.neg y) :
    F64.isNaN (F64.add x y) = true ∧ F64.sub x y = F64.inf (F64.neg x) := by
  obtain ⟨hxnan, -⟩ := F64.not_nan_of_isInf hx
  obtain ⟨hynan, -⟩ := F64.not_nan_of_isInf hy
  have hturned : F64.neg x = F64.neg (F64.negate y) := by
    rw [neg_negate, Bool.eq_not]
    exact hsign
  constructor
  · simp [F64.add, hxnan, hynan, hx, hy, hsign]
  · rw [← (add_sub_inf_same hx (y := F64.negate y) (by rwa [isInf_negate]) hturned).2]
    simp [F64.sub, hxnan, hynan, hsign]

theorem add_inf_finite (hx : F64.isInf x = true) (hy : F64.isFinite y = true) :
    F64.add x y = F64.inf (F64.neg x) ∧ F64.add y x = F64.inf (F64.neg x) := by
  obtain ⟨hxnan, -⟩ := F64.not_nan_of_isInf hx
  obtain ⟨hynan, hyinf⟩ := F64.not_nan_of_isFinite hy
  rw [← F64.eq_inf hx]
  simp [F64.add, hxnan, hynan, hx, hyinf]

theorem sub_inf_finite (hx : F64.isInf x = true) (hy : F64.isFinite y = true) :
    F64.sub x y = F64.inf (F64.neg x) ∧ F64.sub y x = F64.inf (!F64.neg x) := by
  obtain ⟨hxnan, -⟩ := F64.not_nan_of_isInf hx
  obtain ⟨hynan, hyinf⟩ := F64.not_nan_of_isFinite hy
  rw [← (add_inf_finite hx (y := F64.negate y) (by rwa [isFinite_negate])).1, ← neg_negate,
    ← (add_inf_finite (x := F64.negate x) (by rwa [isInf_negate]) hy).2]
  simp [F64.sub, hxnan, hynan, hyinf]

theorem div_inf_finite (hx : F64.isInf x = true) (hy : F64.isFinite y = true) :
    F64.div x y = F64.inf (F64.neg x != F64.neg y) ∧ F64.div y x = F64.zero (F64.neg y != F64.neg x) := by
  obtain ⟨hxnan, -⟩ := F64.not_nan_of_isInf hx
  obtain ⟨hynan, hyinf⟩ := F64.not_nan_of_isFinite hy
  simp [F64.div, hxnan, hynan, hx, hyinf]

theorem mul_inf_of_not_isZero (hx : F64.isInf x = true) (hynan : F64.isNaN y = false) (hy : F64.isZero y = false) :
    F64.mul x y = F64.inf (F64.neg x != F64.neg y) ∧ F64.mul y x = F64.inf (F64.neg y != F64.neg x) := by
  obtain ⟨hxnan, hxzero⟩ := F64.not_nan_of_isInf hx
  simp [F64.mul, hxnan, hynan, hx, hxzero, hy]

/-! ### The two stated exponents -/

theorem isNaN_four : F64.isNaN F64.four = false := by decide +kernel
theorem isNaN_quarter : F64.isNaN F64.quarter = false := by decide +kernel
theorem four_ne_quarter : (F64.four == F64.quarter) = false := by decide +kernel
theorem isStatedExponent_four : F64.isStatedExponent F64.four = true := by simp [F64.isStatedExponent]
theorem isStatedExponent_quarter : F64.isStatedExponent F64.quarter = true := by simp [F64.isStatedExponent]

/-- The fourth root of a negative value is a NaN (42_compensate.md rules R204, R207). -/
theorem pow_quarter_of_neg (hnan : F64.isNaN x = false) (hx : F64.isZero x = false) (hneg : F64.neg x = true) :
    F64.isNaN (F64.pow x F64.quarter) = true := by
  simp [F64.pow, hnan, hx, hneg, isNaN_quarter]

theorem pow_four_inf (hx : F64.isInf x = true) : F64.pow x F64.four = F64.inf false := by
  obtain ⟨hxnan, -⟩ := F64.not_nan_of_isInf hx
  simp [F64.pow, hxnan, hx, isNaN_four, four_ne_quarter, isStatedExponent_four]

theorem pow_quarter_inf (hx : F64.isInf x = true) (hneg : F64.neg x = false) : F64.pow x F64.quarter = F64.inf false := by
  obtain ⟨hxnan, -⟩ := F64.not_nan_of_isInf hx
  simp [F64.pow, hxnan, hx, hneg, isNaN_quarter, isStatedExponent_quarter]

theorem pow_zero_base (hx : F64.isZero x = true) :
    F64.pow x F64.four = F64.zero false ∧ F64.pow x F64.quarter = F64.zero false := by
  obtain ⟨hxnan, hxinf⟩ := F64.not_nan_of_isZero hx
  simp [F64.pow, hxnan, hxinf, hx, isNaN_four, isNaN_quarter, isStatedExponent_four, isStatedExponent_quarter]

end

/-- Settles O56. -/
theorem specialResults : Obligations.SpecialResults := fun _ _ =>
  ⟨nan_propagates, div_zero_of_not_isZero, div_zero_zero, mul_inf_zero, div_inf_inf, add_sub_inf_same, add_sub_inf_opposite,
    fun hx hy => ⟨(add_inf_finite hx hy).1, (add_inf_finite hx hy).2, (sub_inf_finite hx hy).1, (sub_inf_finite hx hy).2,
      div_inf_finite hx hy⟩,
    mul_inf_of_not_isZero, pow_quarter_of_neg, fun hx => ⟨pow_four_inf hx, pow_quarter_inf hx⟩, pow_zero_base⟩

end Sys2Proof.Machine
end

section
/-! The rounding of a ratio (92_eei_decisions.md D16): to the nearest binary64, ties to even, with subnormals and overflow. -/

namespace Sys2Proof.Machine

/-! ### Rounding to an integer -/

/-- The rounded integer is within one half, and even when it is exactly one half away. -/
theorem roundHalfEven_nearest (n : ℕ) {d : ℕ} (hd : 0 < d) :
    2 * |(F64.roundHalfEven n d * d : ℤ) - n| ≤ d ∧
      (2 * |(F64.roundHalfEven n d * d : ℤ) - n| = d → F64.roundHalfEven n d % 2 = 0) := by
  have hn : (n : ℤ) = (n / d : ℕ) * d + (n % d : ℕ) := by exact_mod_cast (Nat.div_add_mod' n d).symm
  have hlt : n % d < d := Nat.mod_lt n hd
  simp only [F64.roundHalfEven]
  generalize n / d = k at hn
  generalize n % d = r at hn hlt
  have hlow : (k * d : ℤ) - n = -r := by rw [hn]; ring
  have hhigh : ((k + 1 : ℕ) * d : ℤ) - n = d - r := by rw [hn]; push_cast; ring
  split
  next =>
    rw [hhigh, abs_of_nonneg (by omega)]
    omega
  next =>
    split
    next =>
      obtain heven | hodd := Nat.mod_two_eq_zero_or_one k
      · rw [heven, add_zero, hlow, abs_neg, Nat.abs_cast]
        omega
      · rw [hodd, hhigh, abs_of_nonneg (by omega)]
        omega
    next =>
      rw [hlow, abs_neg, Nat.abs_cast]
      omega

/-- `k` is the multiple of the unit `u` nearest to `a`, the even one of two. -/
structure NearestMultiple (a u : ℚ) (k : ℕ) : Prop where
  near : 2 * |a - k * u| ≤ u
  tie : 2 * |a - k * u| = u → k % 2 = 0

/-- The rounded integer of a ratio that is `a` in units of `u`. -/
theorem nearestMultiple_roundHalfEven {n d : ℕ} (hd : 0 < d) {a u : ℚ} (hu : 0 < u) (h : (n : ℚ) / d * u = a) :
    NearestMultiple a u (F64.roundHalfEven n d) := by
  obtain ⟨hnear, htie⟩ := roundHalfEven_nearest n hd
  generalize F64.roundHalfEven n d = k at hnear htie
  have hd' : (0 : ℚ) < d := by exact_mod_cast hd
  have herror : 2 * |a - k * u| = ((2 * |(k * d : ℤ) - n| : ℤ) : ℚ) * (u / d) := by
    have hdiff : a - k * u = -(((k * d : ℤ) - n : ℤ) : ℚ) * (u / d) := by
      rw [← h]
      push_cast
      field_simp
      ring
    rw [hdiff, abs_mul, abs_neg, abs_of_pos (show 0 < u / d by positivity), Int.cast_mul, Int.cast_abs, mul_assoc]
    rfl
  have hunit : u = ((d : ℤ) : ℚ) * (u / d) := by
    push_cast
    field_simp
  have hpos : 0 < u / d := by positivity
  constructor
  · rw [herror]
    conv_rhs => rw [hunit]
    exact mul_le_mul_of_nonneg_right (by exact_mod_cast hnear) hpos.le
  · intro heq
    rw [herror] at heq
    conv_rhs at heq => rw [hunit]
    exact htie (by exact_mod_cast mul_right_cancel₀ hpos.ne' heq)

/-- An even multiple is reached from one half of the unit below it on. -/
theorem NearestMultiple.even_le_iff {a u : ℚ} {k K : ℕ} (h : NearestMultiple a u k) (hu : 0 < u) (hK : K % 2 = 0) :
    K ≤ k ↔ ((K : ℚ) - 1 / 2) * u ≤ a := by
  obtain ⟨hnear, htie⟩ := h
  obtain ⟨hlo, hhi⟩ := abs_le.1 (show |a - k * u| ≤ u / 2 by linarith)
  constructor
  · intro hle
    have hcast : (K : ℚ) * u ≤ k * u := by gcongr
    linarith
  · intro hle
    by_contra hlt
    have hnext : K = k + 1 := by
      have : (K : ℚ) - 1 ≤ k := le_of_mul_le_mul_right (a := u) (by linarith) hu
      have : K ≤ k + 1 := by exact_mod_cast (sub_le_iff_le_add.1 this)
      omega
    subst hnext
    push_cast at hle
    have habs : |a - k * u| = u / 2 := by
      rw [abs_of_nonneg (by linarith)]
      linarith
    have heven := htie (by rw [habs]; ring)
    omega

/-! ### The rounding at the scale of a binary64 -/

/-- The unit at the scale `p`: the last place of a value whose biased exponent is `p + 1`. -/
def unitAt (p : ℕ) : ℚ := (2 : ℚ) ^ ((p : ℤ) - 1074)

theorem unitAt_pos (p : ℕ) : 0 < unitAt p := by
  unfold unitAt
  positivity

theorem unitAt_mono {p q : ℕ} (h : p ≤ q) : unitAt p ≤ unitAt q :=
  zpow_le_zpow_right₀ one_le_two (by omega)

theorem unitAt_succ (p : ℕ) : unitAt (p + 1) = unitAt p * 2 := by
  rw [unitAt, unitAt, ← zpow_add_one₀ two_ne_zero]
  congr 1
  push_cast
  ring

/-- `k` units at the scale `p` are the number `a` rounded, and `p` is the scale at which `a` has 53 significant bits, or the
subnormal one. -/
structure RoundedAt (a : ℚ) (p k : ℕ) : Prop where
  nearest : NearestMultiple a (unitAt p) k
  leading : p = 0 ∨ 2 ^ 52 * unitAt p ≤ a
  below : a < 2 ^ 53 * unitAt p

theorem exists_roundedAt (neg : Bool) {n d : ℕ} (hn : 0 < n) (hd : 0 < d) :
    ∃ p k : ℕ, RoundedAt ((n : ℚ) / d) p k ∧
      F64.ofRat neg n d = F64.pack neg (min (p * 2 ^ 52 + k) (2047 * 2 ^ 52)) := by
  obtain ⟨hlo, hhi⟩ := ratLog2_spec hn hd
  obtain ⟨p, hp⟩ : ∃ p : ℕ, max (F64.ratLog2 n d - 52) (-1074) = (p : ℤ) - 1074 :=
    ⟨(max (F64.ratLog2 n d - 52) (-1074) + 1074).toNat, by omega⟩
  have hratio : ((n * 2 ^ (-((p : ℤ) - 1074)).toNat : ℕ) : ℚ) / ((d * 2 ^ ((p : ℤ) - 1074).toNat : ℕ) : ℚ) * unitAt p =
      (n : ℚ) / d := by
    have hscaled := scaled_ratio n d (-((p : ℤ) - 1074))
    rw [neg_neg] at hscaled
    rw [hscaled, unitAt, mul_assoc, ← zpow_add₀ two_ne_zero, neg_add_cancel, zpow_zero, mul_one]
  refine ⟨p, _, ⟨nearestMultiple_roundHalfEven (by positivity) (unitAt_pos p) hratio, ?_, ?_⟩, ?_⟩
  · refine or_iff_not_imp_left.2 fun hp0 => le_trans (le_of_eq ?_) hlo
    rw [unitAt, ← zpow_natCast (2 : ℚ) 52, ← zpow_add₀ two_ne_zero]
    congr 1
    push_cast
    omega
  · refine hhi.trans_le ?_
    rw [unitAt, ← zpow_natCast (2 : ℚ) 53, ← zpow_add₀ two_ne_zero]
    exact zpow_le_zpow_right₀ one_le_two (by push_cast; omega)
  · have hnat : (((p : ℤ) - 1074) + 1074).toNat = p := by omega
    simp only [F64.ofRat, hp, hnat]

section
variable {a : ℚ} {p k : ℕ} (h : RoundedAt a p k)
include h

theorem RoundedAt.le_two_pow : k ≤ 2 ^ 53 := by
  have hu := unitAt_pos p
  have hbelow := h.below
  obtain ⟨hlo, -⟩ := abs_le.1 (show |a - k * unitAt p| ≤ unitAt p / 2 by linarith [h.nearest.near])
  have hlt : (k : ℚ) < 2 ^ 53 + 1 := lt_of_mul_lt_mul_right (a := unitAt p) (by linarith) hu.le
  exact Nat.lt_succ_iff.1 (by exact_mod_cast hlt)

theorem RoundedAt.leading_bit : p = 0 ∨ 2 ^ 52 ≤ k := by
  refine h.leading.imp_right fun hlead => (h.nearest.even_le_iff (unitAt_pos p) (by norm_num)).2 ?_
  have hu := unitAt_pos p
  push_cast
  linarith

/-- The packed pattern is the rounded number: a carry to `2 ^ 53` is the least significand of the next exponent. -/
theorem RoundedAt.f64Value_pack (neg : Bool) (hlt : p * 2 ^ 52 + k < 2047 * 2 ^ 52) :
    f64Value (F64.pack neg (p * 2 ^ 52 + k)) = some (signOf neg * (k * unitAt p)) := by
  obtain hk | rfl := h.le_two_pow.lt_or_eq
  · exact Machine.f64Value_pack neg hk h.leading_bit (by obtain rfl | hlead := h.leading_bit <;> omega)
  · have hcarry : p * 2 ^ 52 + 2 ^ 53 = (p + 1) * 2 ^ 52 + 2 ^ 52 := by ring
    rw [hcarry, Machine.f64Value_pack neg (by norm_num) (.inr le_rfl) (by omega)]
    change some (signOf neg * (((2 ^ 52 : ℕ) : ℚ) * unitAt (p + 1))) = _
    rw [unitAt_succ]
    push_cast
    congr 1
    ring

/-- The largest exponent is overrun from half a unit above the greatest finite value on. -/
theorem RoundedAt.overflows_iff : 2047 * 2 ^ 52 ≤ p * 2 ^ 52 + k ↔ (2 : ℚ) ^ 1024 - 2 ^ 970 ≤ a := by
  have hk := h.le_two_pow
  have hlead := h.leading_bit
  have htop : (2 : ℚ) ^ 1024 = 2 ^ 970 * 2 ^ 54 := pow_add 2 970 54
  have hpos : (0 : ℚ) < 2 ^ 970 := by positivity
  have hunit970 : unitAt 2044 = 2 ^ 970 := rfl
  rw [htop]
  generalize (2 : ℚ) ^ 970 = B at hpos hunit970
  obtain hlt | rfl | hgt := lt_trichotomy p 2045
  · refine iff_of_false (by omega) (not_le.2 (h.below.trans_le ?_))
    have hunit : unitAt p ≤ B := hunit970 ▸ unitAt_mono (by omega)
    calc 2 ^ 53 * unitAt p ≤ 2 ^ 53 * B := by gcongr
      _ ≤ B * 2 ^ 54 - B := by linarith
  · have hbound : ((2 ^ 53 : ℕ) - 1 / 2 : ℚ) * unitAt 2045 = B * 2 ^ 54 - B := by
      rw [unitAt_succ, hunit970]
      push_cast
      ring
    rw [← hbound, ← h.nearest.even_le_iff (unitAt_pos _) (by norm_num)]
    omega
  · refine iff_of_true (by omega) (le_trans ?_ (h.leading.resolve_left (by omega)))
    have hunit : B * 2 * 2 ≤ unitAt p := by
      rw [← hunit970, ← unitAt_succ, ← unitAt_succ]
      exact unitAt_mono (by omega)
    calc B * 2 ^ 54 - B ≤ 2 ^ 52 * (B * 2 * 2) := by linarith
      _ ≤ 2 ^ 52 * unitAt p := by gcongr

end

theorem isFinite_pack_min_iff (neg : Bool) (mag : ℕ) :
    F64.isFinite (F64.pack neg (min mag (2047 * 2 ^ 52))) = true ↔ mag < 2047 * 2 ^ 52 := by
  rw [F64.isFinite, expField_pack neg (by omega), decide_eq_true_iff]
  omega

/-- Settles O59: the scale is that of 53 significant bits or the subnormal one, and the significand is rounded there. -/
theorem roundsToNearestEven : Obligations.RoundsToNearestEven := by
  refine ⟨fun n d hd => roundHalfEven_nearest n hd, fun neg n d hn hd => ?_⟩
  obtain ⟨p, k, hround, hofRat⟩ := exists_roundedAt neg hn hd
  have hfinite : F64.isFinite (F64.ofRat neg n d) = true ↔ p * 2 ^ 52 + k < 2047 * 2 ^ 52 := by
    rw [hofRat, isFinite_pack_min_iff]
  have hinfinite : F64.isFinite (F64.ofRat neg n d) = false ↔ 2047 * 2 ^ 52 ≤ p * 2 ^ 52 + k := by
    rw [← Bool.not_eq_true, hfinite, not_lt]
  refine ⟨fun hfin => ?_, hinfinite.trans hround.overflows_iff, fun hinf => ?_⟩
  · have hlt := hfinite.1 hfin
    rw [hofRat, min_eq_left hlt.le, hround.f64Value_pack neg hlt, ← mul_assoc]
    exact ⟨k, (p : ℤ) - 1074, by omega, hround.le_two_pow, hround.leading.imp_left (by omega), hround.below, rfl,
      hround.nearest.near, hround.nearest.tie⟩
  · rw [hofRat, min_eq_right (hinfinite.1 hinf)]
    rfl

end Sys2Proof.Machine
end

section
/-! EXTRACT, NIBBLE and the record words (40_extract.md, 41_decode.md rules R148 to R163, 42_compensate.md rules R192 to
R202). -/

namespace Sys2Proof.Machine

/-! ### EXTRACT and NIBBLE -/

/-- Settles O10: the range of a field is that of its width and signedness. -/
theorem extractionRange : Obligations.ExtractionRange := by
  intro word start width hlegal
  obtain ⟨hwidth, -⟩ := (legalSlice_iff start width).1 hlegal
  obtain ⟨hslo, hshi⟩ := fieldInt_signed_range word start hwidth
  obtain ⟨hulo, huhi⟩ := fieldInt_unsigned_range word start width
  rw [extractInt_eq_fieldInt hlegal, extractInt_eq_fieldInt hlegal]
  exact ⟨⟨hslo, Int.le_sub_one_of_lt hshi⟩, hulo, Int.le_sub_one_of_lt huhi⟩

theorem exec_nibble (w : Word) (j : BitVec 2) (s : State) :
    exec (.nibble w j) s = .next (extractCommand true 4 (4 * j.toNat) w s) := rfl

/-- Element `j` of a word by its base-16 digits (40_extract.md rule R125). -/
theorem fieldInt_nibble (w : Word) (j : Nat) :
    fieldInt w (4 * j) 4 true =
      if w.toNat / 16 ^ j % 16 ≤ 7 then ((w.toNat / 16 ^ j % 16 : Nat) : Int)
      else ((w.toNat / 16 ^ j % 16 : Nat) : Int) - 16 := by
  have hpow : 2 ^ (4 * j) = 16 ^ j := by rw [pow_mul]; norm_num
  simp only [fieldInt, hpow, true_and]
  by_cases hpos : w.toNat / 16 ^ j % 16 ≤ 7
  · rw [if_pos hpos, if_neg (by omega)]
    rfl
  · rw [if_neg hpos, if_pos (by omega)]
    norm_num

/-- Settles O12: the four elements of a word are all in the domain of EXTRACT. -/
theorem nibbleAnswersElement : Obligations.NibbleAnswersElement := by
  intro w j s
  have hj : j.toNat < 4 := j.isLt
  have hlegal : legalSlice (4 * j.toNat) 4 = true := (legalSlice_iff _ _).2 (by omega)
  obtain ⟨r, hr, hexec⟩ := extractCommand_answers_fieldInt hlegal true w s
  exact ⟨r, hr.trans (fieldInt_nibble w j.toNat), by rw [exec_nibble, hexec]⟩

/-! ### Stores of a sub-field into a cell of its own width -/

theorem zext_range {n : Nat} (v : BitVec n) : 0 ≤ zext v ∧ zext v < 2 ^ n := by
  unfold zext
  exact ⟨Int.natCast_nonneg _, by exact_mod_cast v.isLt⟩

@[simp] theorem storeUnsigned_zext {n : Nat} (v : BitVec n) : storeUnsigned n (zext v) = v := by
  have h := storeUnsigned_toNat (zext_range v).1 (zext_range v).2
  unfold zext at h ⊢
  exact BitVec.eq_of_toNat_eq (by exact_mod_cast h)

/-! ### The EEPROM words that set scalars -/

/-- `a_PTAT` of a field of 4 bits, exact (41_decode.md rule R148). -/
theorem f64Value_aPtatOf {a : ℤ} (ha : 0 ≤ a ∧ a < 2 ^ 4) : f64Value (aPtatOf .binary64 a) = some ((a : ℚ) / 4 + 8) := by
  have hquarter : f64Value (F64.div (F64.ofInt a) (F64.lit (2 ^ 2) 1)) = _ :=
    f64Value_div_lit_two_pow (by omega) (by omega)
  have height8 : f64Value (F64.lit (2 ^ 3) 1) = _ := f64Value_lit_two_pow (by omega)
  have hsum : (a : ℚ) / 2 ^ 2 + 2 ^ 3 = ((a + 32 : ℤ) : ℚ) / 2 ^ 2 := by
    push_cast
    ring
  have hpos : (a : ℚ) / 2 ^ 2 + 2 ^ 3 ≠ 0 := by
    have ha0 : (0 : ℚ) ≤ a := by exact_mod_cast ha.1
    positivity
  have hvalue := (isRounding_add hquarter height8 hpos).f64Value_eq
    (hsum ▸ representable_int_div_two_pow (n := a + 32) (by omega) (by norm_num))
  norm_num at hvalue
  exact hvalue

/-- Settles O13. -/
theorem temperatureScaleRows : Obligations.TemperatureScaleRows := by
  refine ⟨fun rem col row a s => ⟨aPtatOf s.cfg.numerics (zext a), fun hN => ?_, rfl⟩,
    fun low mid kv s => ⟨kTPtatOf s.cfg.numerics (zext low) (zext mid), kVPtatOf s.cfg.numerics (sext kv),
      fun hN => ⟨?_, ?_⟩, rfl⟩⟩
  · simpa [hN, zext] using f64Value_aPtatOf (zext_range a)
  · simpa [hN, zext] using f64Value_kTPtatOf (zext_range low) (zext_range mid)
  · rw [hN]
    exact f64Value_kVPtatOf ⟨BitVec.le_toInt kv, BitVec.toInt_lt⟩

/-- Settles O14. -/
theorem scaleAndAverageRows : Obligations.ScaleAndAverageRows :=
  ⟨fun _ _ _ _ _ => rfl, fun _ _ _ _ _ => rfl, fun _ _ _ => rfl, fun _ _ => rfl, fun _ _ => rfl⟩

/-- Settles O15: each constant is stored in a register of its field's width. -/
theorem directConstantRows : Obligations.DirectConstantRows := by
  refine ⟨fun vdd kVdd s => ?_, fun v s => ?_, fun v s => ?_⟩
  · simp [exec, execW2433, State.onDec, rowW2433]
  · simp [exec, execPtat25, State.onDec, rowPtat25]
  · simp [exec, execEeGain, State.onDec, rowEeGain]

/-! ### The parity grids -/

/-- The cells that the default `KV_MAP` feeds (30_encoding.md rule R88). -/
theorem scatter_defaultKvMap {α : Type} (v : Fin 4 → α) (q : Quad α) :
    scatter defaultKvMap v q = ⟨v 0, v 2, v 1, v 3⟩ := rfl

theorem f64Value_kVCellOf {k v : ℤ} (h0 : 0 ≤ k) (h15 : k ≤ 15) (hv : -2 ^ 3 ≤ v ∧ v < 2 ^ 3) :
    f64Value (kVCellOf .binary64 k v) = some ((v : ℚ) / 2 ^ k.toNat) :=
  f64Value_div_pow2 (by omega) h0 (by omega)

theorem nibble_range (n : BitVec 4) : -2 ^ 3 ≤ n.toInt ∧ n.toInt < 2 ^ 3 := ⟨BitVec.le_toInt n, BitVec.toInt_lt⟩

/-- Settles O16. -/
theorem w2434SetsVoltageGrid : Obligations.W2434SetsVoltageGrid := by
  intro n0 n1 n2 n3 s
  refine ⟨_, fun hN hmap h0 h15 => ?_, rfl⟩
  rw [hN, hmap, scatter_defaultKvMap]
  exact ⟨f64Value_kVCellOf h0 h15 (nibble_range n0), f64Value_kVCellOf h0 h15 (nibble_range n1),
    f64Value_kVCellOf h0 h15 (nibble_range n2), f64Value_kVCellOf h0 h15 (nibble_range n3)⟩

/-- Settles O17: with the default `KTA_MAP` the two words feed the two columns of the grid. -/
theorem w2436AndW2437SetAmbientGrid : Obligations.W2436AndW2437SetAmbientGrid := by
  intro l h s
  refine ⟨_, _, fun hmap => ?_, rfl, rfl⟩
  simp only [hmap, List.foldl_cons, List.foldl_nil, asSigned_sext (show 0 < 8 by decide)]
  exact ⟨rfl, rfl⟩

/-! ### The packed arrays and the per-pixel word -/

/-- Word `k` of a packed array, element by element (30_encoding.md rule R94). -/
theorem putNibbles_get {n : Nat} (k : Nat) (a b c d : Int) (arr : Cells n Int) (j : Fin n) :
    (putNibbles k a b c d arr).get j =
      if j.val = 4 * k then a else if j.val = 4 * k + 1 then b else if j.val = 4 * k + 2 then c
        else if j.val = 4 * k + 3 then d else arr.get j := by
  rw [putNibbles, Cells.get_ofFn]
  by_cases hword : j.val / 4 = k
  · rw [if_pos hword, pick4]
    grind
  · rw [if_neg hword, if_neg (by omega), if_neg (by omega), if_neg (by omega), if_neg (by omega)]

/-- Settles O18. -/
theorem nibbleArrayRows : Obligations.NibbleArrayRows := fun _ _ _ _ _ =>
  ⟨fun k => ⟨_, putNibbles_get k.val _ _ _ _ _, rfl⟩, fun k => ⟨_, putNibbles_get k.val _ _ _ _ _, rfl⟩,
    fun k => ⟨_, putNibbles_get k.val _ _ _ _ _, rfl⟩, fun k => ⟨_, putNibbles_get k.val _ _ _ _ _, rfl⟩⟩

/-- Settles O19: the alpha remainder is put together from its two parts. -/
theorem pixwordSetsPixel : Obligations.PixwordSetsPixel := by
  intro i o k lo hi p s
  refine ⟨_, _, _, _, (Cells.get_put _ i · _), (Cells.get_put _ i · _), fun j => ?_, (Cells.get_put _ i · _), rfl⟩
  rw [Cells.get_put, zext, zext, alphaRemOf_natCast lo.isLt hi.isLt]

/-! ### The words of a frame -/

/-- Settles O20: an `s16` holds every word. -/
theorem frameHeaderRows : Obligations.FrameHeaderRows := by
  intro v s
  refine ⟨?_, ?_, ?_, ?_⟩
  · simp [exec, execVddRaw, State.onFrm, rowVddRaw]
  · simp [exec, execAmbientProxyRaw, State.onFrm, rowAmbientProxyRaw]
  · simp [exec, execVBe, State.onFrm, rowVBe]
  · simp [exec, execGainRam, State.onFrm, rowGainRam]

/-- Bit 0 of the status word, whatever the ignored bits are (30_encoding.md rule R99). -/
theorem statusWord_mod_two (b : BitVec 1) (r : BitVec 15) :
    (placed 16 r 1 ||| placed 16 b 0).toNat % 2 = b.toNat := by
  have hbit : (placed 16 r 1 ||| placed 16 b 0).extractLsb' 0 1 = b := by
    simp (disch := omega) [BitVec.extractLsb'_or, extractLsb'_placed_self, extractLsb'_placed_disjoint]
  simpa [BitVec.extractLsb'_toNat] using congrArg BitVec.toNat hbit

/-- Settles O21. -/
theorem statusWordAndPixelRows : Obligations.StatusWordAndPixelRows := by
  refine ⟨fun b r s => ?_, fun i v s => ⟨_, fun j => ?_, rfl⟩⟩
  · simp only [exec, execStatusWord, State.onFrm, rowStatusWord, statusWord_mod_two]
  · rw [Cells.get_put, asSigned_sext (by decide)]

end Sys2Proof.Machine
end

section
/-! DECODE: its errors, what it writes and what it reads (41_decode.md). -/

namespace Sys2Proof.Machine

/-! ### What it writes -/

/-- Settles O22. -/
theorem decodeCompletes : Obligations.DecodeCompletes := fun _ _ hvalid hlen hwf hident =>
  (exec_decode_of_passes hvalid hlen hwf hident).trans rfl

theorem reconstruct_decodeImage_aPtat (N : Numerics) (c : Config) (m : Memory) (t : DecodeTemps) :
    (reconstruct N (decodeImage c m t)).aPtat = aPtatOf c.numerics (readField .ee m c.ft.aPtatEE) := rfl

/-- The committed grid with the default `KV_MAP` (30_encoding.md rule R88). -/
theorem reconstruct_decodeImage_kV {c : Config} (hmap : c.kvMap = defaultKvMap) (N : Numerics) (m : Memory) (t : DecodeTemps) :
    (reconstruct N (decodeImage c m t)).kV =
      ⟨kVCellOf c.numerics (readField .ee m c.ft.kvScale) (readField .ee m c.ft.kvN0),
        kVCellOf c.numerics (readField .ee m c.ft.kvScale) (readField .ee m c.ft.kvN2),
        kVCellOf c.numerics (readField .ee m c.ft.kvScale) (readField .ee m c.ft.kvN1),
        kVCellOf c.numerics (readField .ee m c.ft.kvScale) (readField .ee m c.ft.kvN3)⟩ := by
  have hscatter := scatter_defaultKvMap
    (fun n => kVCellOf c.numerics (readField .ee m c.ft.kvScale)
      (pick4 (readField .ee m c.ft.kvN0) (readField .ee m c.ft.kvN1) (readField .ee m c.ft.kvN2)
        (readField .ee m c.ft.kvN3) n.val))
  rw [← hmap] at hscatter
  exact hscatter _

/-- A cell of the grid from a nibble of word 0x2434 (41_decode.md rule R152). -/
theorem f64Value_kVCellOf_fieldInt (w w' : Word) (start : ℕ) :
    f64Value (kVCellOf .binary64 (fieldInt w 4 4 false) (fieldInt w' start 4 true)) =
      some ((fieldInt w' start 4 true : ℚ) / 2 ^ (fieldInt w 4 4 false).toNat) := by
  obtain ⟨h0, hlt⟩ := fieldInt_unsigned_range w 4 4
  exact f64Value_kVCellOf h0 (by omega) (fieldInt_signed_range w' start (by decide))

/-- Settles O24: the quotients are exact, and the default map sends nibble `pr + 2 * pc` to the cell `[pr][pc]`. -/
theorem decodeCommitsTableScalars : Obligations.DecodeCommitsTableScalars := by
  intro skip s hdef hvalid hlen hident
  refine ⟨s.runDecode, exec_decode_of_passes hvalid hlen hdef.decodeConfigWf_eq hident, ?_⟩
  have hread := fun f hf => readField_default (f := f) hf s.din
  rw [State.runDecode_cal, reconstruct_decodeImage_aPtat, reconstruct_decodeImage_kV (congrArg Config.kvMap hdef),
    hdef.numerics_eq, hdef.ft_eq, hread _ (by decide), hread _ (by decide), hread _ (by decide), hread _ (by decide),
    hread _ (by decide), hread _ (by decide)]
  refine ⟨f64Value_aPtatOf (fieldInt_unsigned_range _ _ _), fun pr pc => ?_⟩
  fin_cases pr <;> fin_cases pc <;> exact f64Value_kVCellOf_fieldInt _ _ _

/-! ### Its errors -/

theorem exec_decode_of_earlyError {s : State} {e : ErrCode} (h : decodeEarlyError s = some e) (skip : Bool) :
    exec (.decode skip) s = .next (s.raise e (decodeDiag s e)) :=
  exec_decode_of_error (by simp only [decodeError, h]) (.inl h)

theorem exec_decode_of_identityMismatch {s : State} (hearly : decodeEarlyError s = none) (hwf : decodeConfigWf s.cfg = true)
    (hident : ¬ signaturesMatch s.cfg s.din) :
    exec (.decode false) s = .next (s.raise .identityMismatch (diagWords s.din)) := by
  have herror : decodeError false s = some .identityMismatch := by
    simp [decodeError, hearly, ← identityOk_iff] at hident ⊢
    exact hident
  exact exec_decode_of_error herror (.inr hwf)

theorem diagWords_get (m : Memory) (k : Fin 16) : (diagWords m).get k = eeWord m (0x2400 + k) := by
  rw [diagWords, Cells.get_ofFn, eeWord, Nat.add_sub_cancel_left]

/-- Settles O30: the tests stand in the order of the definition. -/
theorem decodeErrorsInOrder : Obligations.DecodeErrorsInOrder := by
  refine ⟨fun skip s hvalid => ?_, fun skip s hvalid hlen => ?_, fun s hvalid hlen hwf hident => ?_⟩
  · have hearly : decodeEarlyError s = some .calLocked := if_pos hvalid
    rw [exec_decode_of_earlyError hearly]
    rfl
  · have hearly : decodeEarlyError s = some .truncatedImage := by simp [decodeEarlyError, hvalid, eeBytes, hlen]
    rw [exec_decode_of_earlyError hearly]
    rfl
  · refine ⟨diagWords s.din, diagWords_get s.din, ?_⟩
    rw [exec_decode_of_identityMismatch (decodeEarlyError_eq_none hvalid hlen) hwf hident]
    rfl

/-! ### What it reads -/

theorem decodeDiag_of_ne {e : ErrCode} (h : e ≠ .identityMismatch) (s : State) : decodeDiag s e = noDiag := by
  cases e
  case identityMismatch => exact absurd rfl h
  all_goals rfl

/-- A DECODE that passed its tests has discarded the image when it answers, so only its fields count. -/
theorem runDecode_congr {s : State} {m m' : Memory} (h : ∀ a ∈ decodeAddrs s.cfg, memRead .ee m a = memRead .ee m' a) :
    State.runDecode { s with din := m } = State.runDecode { s with din := m' } := by
  have himage := decodeImage_congr h s.work.dec
  simp only [State.runDecode, himage]
  rfl

/-- Two images that give the same tests, the same `diag` and the same fields give the same DECODE. -/
theorem exec_decode_congr {skip : Bool} {s : State} {m m' : Memory} (hlen : m.len = m'.len)
    (herror : decodeError skip { s with din := m } = decodeError skip { s with din := m' })
    (hdiag : ∀ e, decodeError skip { s with din := m } = some e →
      decodeDiag { s with din := m } e = decodeDiag { s with din := m' } e)
    (h : ∀ a ∈ decodeAddrs s.cfg, memRead .ee m a = memRead .ee m' a) :
    exec (.decode skip) { s with din := m } = exec (.decode skip) { s with din := m' } := by
  have hearly : decodeEarlyError { s with din := m } = decodeEarlyError { s with din := m' } := by
    simp only [decodeEarlyError, hlen]
  obtain ⟨e, he, htest, hraise⟩ | ⟨hnone, hbad, hrefused⟩ | ⟨hnone, hwf, hrun⟩ := execDecode_cases skip { s with din := m }
  · rw [exec_decode, hraise, exec_decode_of_error (s := { s with din := m' }) (herror.symm.trans he) (hearly ▸ htest),
      hdiag e he]
    rfl
  · rw [exec_decode, hrefused, exec_decode_of_illFormed (s := { s with din := m' }) (hearly.symm.trans hnone) hbad]
  · rw [exec_decode, hrun, exec_decode_of_no_error (s := { s with din := m' }) (herror.symm.trans hnone) hwf,
      runDecode_congr h]

/-- Settles O32: the early tests see the length alone, the identity check its bytes, `diag` the words 0 to 15, and the rows the
addresses of the field table. -/
theorem decodeDependsOnItsWordsOnly : Obligations.DecodeDependsOnItsWordsOnly := by
  intro s m m' hlen hread
  have hearly : decodeEarlyError { s with din := m } = decodeEarlyError { s with din := m' } := by
    simp only [decodeEarlyError, hlen]
  refine ⟨?_, fun hid hcfg hwords => ?_⟩
  · refine exec_decode_congr hlen (by rw [decodeError_skip, decodeError_skip, hearly]) (fun e he => ?_) hread
    have hne : e ≠ .identityMismatch := by
      rintro rfl
      exact decodeEarlyError_ne_identityMismatch _ (decodeError_skip _ ▸ he)
    rw [decodeDiag_of_ne hne, decodeDiag_of_ne hne]
  · have hident : identityOk s.cfg m = identityOk s.cfg m' := by
      simp only [identityOk, hid, hcfg]
    have hdiag : diagWords m = diagWords m' := by
      simp only [diagWords, hwords]
    refine exec_decode_congr hlen (by simp only [decodeError, hearly, hident]) (fun e _ => ?_) hread
    cases e
    case identityMismatch => exact hdiag
    all_goals rfl

/-! ### The record words of an image, run one after another -/

/-- A cell that is written for every index of a list holds the last value written, the same for each. -/
theorem Cells.get_foldl_put {n : Nat} {α : Type} (v : Fin n → α) (l : List (Fin n)) (c : Cells n α) (j : Fin n) :
    (l.foldl (fun c i => c.put i (v i)) c).get j = if j ∈ l then v j else c.get j := by
  induction l generalizing c with
  | nil => simp
  | cons i l ih =>
    rw [List.foldl_cons, ih, Cells.get_put]
    by_cases hl : j ∈ l
    · simp [hl]
    · by_cases hi : j = i <;> simp [hl, hi]

theorem runRecords_cons {m : Memory} {r : RecordRow} {rows : List RecordRow} {s t : State}
    (h : exec (rowInstr s.cfg m r) s = .next t) : runRecords m (r :: rows) s = runRecords m rows t := by
  rw [runRecords, h]

/-- Running rows that each change the temporaries alone. -/
theorem runRecords_of_effects {m : Memory} {effect : RecordRow → Work → Work} {rows : List RecordRow} {s : State}
    (h : ∀ r ∈ rows, ∀ w : Work,
      exec (rowInstr s.cfg m r) { s with work := w } = .next { s with work := effect r w }) (w : Work) :
    runRecords m rows { s with work := w } = .next { s with work := rows.foldl (fun w r => effect r w) w } := by
  induction rows generalizing w with
  | nil => rfl
  | cons r rows ih =>
    rw [runRecords_cons (h r List.mem_cons_self w), ih (fun r' hr' => h r' (List.mem_cons_of_mem r hr'))]
    rfl

/-- A pattern read as an integer, signed or not (00_scope.md rule R10). -/
def patternInt (signed : Bool) {n : Nat} (v : BitVec n) : Int := if signed then sext v else zext v

/-- The sub-field of a record word is the field of the word's address. -/
theorem readField_eq_patternInt {f : FieldTuple} (hlegal : sliceLegal f.slice = true) (sp : Space) (m : Memory) :
    readField sp m f =
      patternInt f.slice.signed ((memRead sp m f.addr).extractLsb' f.slice.start f.slice.width) := by
  obtain ⟨hwidth, -⟩ := (legalSlice_iff _ _).1 hlegal
  have hhalf : 2 ^ f.slice.width = 2 * 2 ^ (f.slice.width - 1) := by rw [← pow_succ', Nat.sub_add_cancel hwidth]
  rw [readField, extractInt_eq_fieldInt hlegal, fieldInt, patternInt, sext, zext, BitVec.toInt_eq_toNat_cond,
    BitVec.extractLsb'_toNat, Nat.shiftRight_eq_div_pow]
  cases f.slice.signed with
  | false => simp
  | true =>
    simp only [true_and, if_true]
    split
    next hneg =>
      rw [if_neg (by omega)]
      push_cast
      rfl
    next hpos => rw [if_pos (by omega)]

/-- Word `j` of the packed array at `base`, by the fields of its address (30_encoding.md rule R94). -/
def packedWord {k : Nat} (m : Memory) (base j : Nat) (arr : Cells k Int) : Cells k Int :=
  let rd := readField .ee m
  putNibbles j (rd ⟨base + j, ⟨0, 4, true⟩⟩) (rd ⟨base + j, ⟨4, 4, true⟩⟩) (rd ⟨base + j, ⟨8, 4, true⟩⟩)
    (rd ⟨base + j, ⟨12, 4, true⟩⟩) arr

/-- What a record word of the EEPROM does to the temporaries, by the fields of its address. -/
def eepromEffect (c : Config) (m : Memory) (r : RecordRow) (t : DecodeTemps) : DecodeTemps :=
  let rd := readField .ee m
  let f := c.ft
  match r with
  | .w2410 => rowW2410 c.numerics (rd f.remScale) (rd f.colScale) (rd f.rowScale) (rd f.aPtatEE) t
  | .w2420 => rowW2420 (rd f.aRemScale) (rd f.aColScale) (rd f.aRowScale) (rd f.aScaleEE) t
  | .w2432 => rowW2432 c.numerics (rd f.ktLow) (rd f.ktMid) (rd f.kvPtatEE) t
  | .w2433 => rowW2433 (rd f.vdd25EE) (rd f.kVddEE) t
  | .w2434 => rowW2434 c.numerics c.kvMap (rd f.kvN0) (rd f.kvN1) (rd f.kvN2) (rd f.kvN3) t
  | .w2436 => rowKTa2x2 c.ktaMap [(0, rd f.ktaB0), (1, rd f.ktaB1)] t
  | .w2437 => rowKTa2x2 c.ktaMap [(2, rd f.ktaB2), (3, rd f.ktaB3)] t
  | .w2438 => rowW2438 (rd f.unused2438) (rd f.kvScale) (rd f.kTaScale1EE) (rd f.kTaScale2) t
  | .w243C => rowW243C (rd f.tgc) (rd f.ksTa) t
  | .ptat25 => rowPtat25 (rd f.ptat25) t
  | .eeGain => rowEeGain (rd f.eeGain) t
  | .offsetAvg => rowOffsetAvg (rd (offsetAvgField c)) t
  | .alphaAvg => rowAlphaAvg (rd (aAvgField c)) t
  | .occRow j => { t with offsetRow := packedWord m c.aOccRow j t.offsetRow }
  | .occCol j => { t with offsetCol := packedWord m c.aOccCol j t.offsetCol }
  | .accRow j => { t with aRow := packedWord m c.aAccRow j t.aRow }
  | .accCol j => { t with aCol := packedWord m c.aAccCol j t.aCol }
  | .pixword i =>
    rowPixword i (rd (pixField c c.pix.outlier i)) (rd (pixField c c.pix.kTaIncrement i)) (rd (pixField c c.pix.alphaLo i))
      (rd (pixField c c.pix.alphaHi i)) (rd (pixField c c.pix.pixOff i)) t
  | .rawPixel _ | .ambientProxyRaw | .vddRaw | .vBe | .gainRam | .statusWord => t

theorem readField_whole {sl : Slice} (hstart : sl.start = 0) (hwidth : sl.width = 16) (sp : Space) (m : Memory) (a : Nat) :
    readField sp m ⟨a, sl⟩ = patternInt sl.signed (memRead sp m a) := by
  obtain ⟨start, width, signed⟩ := sl
  subst hstart hwidth
  have hfull : (memRead sp m a).extractLsb' 0 16 = memRead sp m a := by simp
  rw [readField_eq_patternInt (by rfl), hfull]

/-- A record word of the default table does what its row does through the field table. -/
theorem exec_rowInstr_eeprom {s : State} (hdef : hasDefaults s.cfg) (m : Memory) {r : RecordRow} (hr : rowSpace r = .ee) :
    exec (rowInstr s.cfg m r) s = .next (s.onDec (eepromEffect s.cfg m r)) := by
  have hscalar : ∀ f ∈ scalarFields defaultFieldTable, readField .ee m f =
      patternInt f.slice.signed ((memRead .ee m f.addr).extractLsb' f.slice.start f.slice.width) :=
    fun f hf => readField_eq_patternInt (scalarFields_default_readable f hf).2.2 .ee m
  have hfield : ∀ a sl, sliceLegal sl = true →
      readField .ee m ⟨a, sl⟩ = patternInt sl.signed ((memRead .ee m a).extractLsb' sl.start sl.width) :=
    fun a sl hlegal => readField_eq_patternInt (f := ⟨a, sl⟩) hlegal .ee m
  have hft := hdef.ft_eq
  have harr : s.cfg.arr = defaultArrayTable := congrArg Config.arr hdef
  have hpix : s.cfg.pix = defaultPixTable := congrArg Config.pix hdef
  unfold eepromEffect
  cases r with
  | rawPixel | ambientProxyRaw | vddRaw | vBe | gainRam | statusWord => cases hr
  | w2410 | w2420 | w2432 | w2433 | w2434 | w2436 | w2437 | w2438 | w243C =>
    simp (disch := decide) only [hft, hscalar]
    rfl
  | ptat25 | eeGain =>
    simp only [hft, defaultFieldTable, sField, readField_whole]
    rfl
  | offsetAvg | alphaAvg =>
    simp only [offsetAvgField, aAvgField, harr, defaultArrayTable, wholeSigned, readField_whole]
    rfl
  | occRow | occCol | accRow | accCol =>
    simp (disch := decide) only [packedWord, hfield]
    rfl
  | pixword =>
    simp (disch := decide) only [pixField, hpix, hfield]
    rfl

/-! ### The fold of the record words is the image as DECODE reads it -/

/-- The scalar rows, which stand first in `eepromRows`. -/
def scalarRows : List RecordRow :=
  [.w2410, .w2420, .w2432, .w2433, .w2438, .w2434, .w2436, .w2437, .w243C, .ptat25, .eeGain, .offsetAvg, .alphaAvg]

/-- The temporaries after the rows of a list. -/
def runEffects (c : Config) (m : Memory) (rows : List RecordRow) (t : DecodeTemps) : DecodeTemps :=
  rows.foldl (fun t r => eepromEffect c m r t) t

theorem runEffects_cons (c : Config) (m : Memory) (r : RecordRow) (rows : List RecordRow) (t : DecodeTemps) :
    runEffects c m (r :: rows) t = runEffects c m rows (eepromEffect c m r t) :=
  List.foldl_cons ..

/-- The other temporaries stand still. -/
theorem foldl_dec (c : Config) (m : Memory) (rows : List RecordRow) (w : Work) :
    rows.foldl (fun (w : Work) r => { w with dec := eepromEffect c m r w.dec }) w =
      { w with dec := runEffects c m rows w.dec } :=
  List.foldl_hom (fun d => { w with dec := d }) (init := w.dec) fun _ _ => rfl

theorem runEffects_append (c : Config) (m : Memory) (rows rows' : List RecordRow) (t : DecodeTemps) :
    runEffects c m (rows ++ rows') t = runEffects c m rows' (runEffects c m rows t) :=
  List.foldl_append

theorem runEffects_scalarRows (c : Config) (m : Memory) (t : DecodeTemps) :
    runEffects c m scalarRows t = decodeScalars c m t := rfl

/-- With the default `KTA_MAP` the two words feed all four cells (30_encoding.md rule R89). -/
theorem rowKTa2x2_defaultKtaMap (a b c d : Int) (t : DecodeTemps) :
    rowKTa2x2 defaultKtaMap [(2, c), (3, d)] (rowKTa2x2 defaultKtaMap [(0, a), (1, b)] t) =
      { t with kTa2x2 := ⟨asSigned 8 c, asSigned 8 a, asSigned 8 d, asSigned 8 b⟩ } := rfl

/-- The default maps feed every cell, so nothing of what a parity grid held before is left. -/
theorem decodeScalars_freshTemps {c : Config} (hdef : hasDefaults c) (m : Memory) (t : DecodeTemps) :
    decodeScalars c m (freshTemps t) = decodeScalars c m t := by
  have hkv : c.kvMap = defaultKvMap := congrArg Config.kvMap hdef
  have hkta : c.ktaMap = defaultKtaMap := congrArg Config.ktaMap hdef
  simp only [decodeScalars, hkv, hkta, rowW2434, scatter_defaultKvMap, rowKTa2x2_defaultKtaMap]
  rfl

/-- A word of four values of a sequence, element by element. -/
theorem putNibbles_get_of_values {k : Nat} (v : Nat → Int) (j : Nat) (arr : Cells k Int) (i : Fin k) :
    (putNibbles j (v (4 * j)) (v (4 * j + 1)) (v (4 * j + 2)) (v (4 * j + 3)) arr).get i =
      if i.val / 4 = j then v i else arr.get i := by
  rw [putNibbles_get]
  split_ifs <;> grind

theorem get_foldl_putNibbles {words k : Nat} (v : Nat → Int) (l : List (Fin words)) (arr : Cells k Int) (i : Fin k) :
    (l.foldl (fun arr (j : Fin words) => putNibbles j (v (4 * j)) (v (4 * j + 1)) (v (4 * j + 2)) (v (4 * j + 3))
      arr) arr).get i =
      if ∃ j ∈ l, i.val / 4 = j.val then v i else arr.get i := by
  induction l generalizing arr with
  | nil => simp
  | cons j l ih =>
    rw [List.foldl_cons, ih, putNibbles_get_of_values]
    by_cases hl : ∃ j ∈ l, i.val / 4 = j.val
    · simp [hl]
    · by_cases hj : i.val / 4 = j.val <;> simp [hl, hj]

/-- The words of a packed array, one after another, set every element (30_encoding.md rule R94). -/
theorem foldl_packedWord {words k : Nat} (hk : k ≤ 4 * words) (m : Memory) (base : Nat) (arr : Cells k Int) :
    (List.finRange words).foldl (fun arr (j : Fin words) => packedWord m base j arr) arr =
      readElements m base (Cells.ofFn (nibbleSlice (k := k))) := by
  have hfour : 0 < 4 := by decide
  have hget := get_foldl_putNibbles (words := words) (k := k)
    (fun n => readField .ee m ⟨base + n / 4, ⟨4 * (n % 4), 4, true⟩⟩) (List.finRange words) arr
  simp only [Nat.mul_add_div hfour, Nat.mul_add_mod, Nat.mul_div_cancel_left _ hfour, Nat.mul_mod_right] at hget
  refine Cells.ext_get fun i => (hget i).trans ?_
  rw [if_pos ⟨⟨i.val / 4, by omega⟩, List.mem_finRange _, rfl⟩, readElements, Cells.get_ofFn, elementField, Cells.get_ofFn,
    nibbleSlice]

section
variable (c : Config) (m : Memory) (t : DecodeTemps)

theorem runEffects_occRow (rows : List (Fin 6)) : runEffects c m (rows.map .occRow) t =
    { t with offsetRow := rows.foldl (fun arr (j : Fin 6) => packedWord m c.aOccRow j arr) t.offsetRow } :=
  List.foldl_map.trans (List.foldl_hom (fun arr => { t with offsetRow := arr }) (init := t.offsetRow) fun _ _ => rfl)

theorem runEffects_occCol (rows : List (Fin 8)) : runEffects c m (rows.map .occCol) t =
    { t with offsetCol := rows.foldl (fun arr (j : Fin 8) => packedWord m c.aOccCol j arr) t.offsetCol } :=
  List.foldl_map.trans (List.foldl_hom (fun arr => { t with offsetCol := arr }) (init := t.offsetCol) fun _ _ => rfl)

theorem runEffects_accRow (rows : List (Fin 6)) : runEffects c m (rows.map .accRow) t =
    { t with aRow := rows.foldl (fun arr (j : Fin 6) => packedWord m c.aAccRow j arr) t.aRow } :=
  List.foldl_map.trans (List.foldl_hom (fun arr => { t with aRow := arr }) (init := t.aRow) fun _ _ => rfl)

theorem runEffects_accCol (rows : List (Fin 8)) : runEffects c m (rows.map .accCol) t =
    { t with aCol := rows.foldl (fun arr (j : Fin 8) => packedWord m c.aAccCol j arr) t.aCol } :=
  List.foldl_map.trans (List.foldl_hom (fun arr => { t with aCol := arr }) (init := t.aCol) fun _ _ => rfl)

/-- The per-pixel words set their own pixels, each of the four temporaries apart. -/
theorem runEffects_pixword (pixels : List Pixel) : runEffects c m (pixels.map .pixword) t =
    { t with
      outlier := pixels.foldl (fun v i => v.put i (readField .ee m (pixField c c.pix.outlier i))) t.outlier
      kTaIncrement := pixels.foldl (fun v i => v.put i (readField .ee m (pixField c c.pix.kTaIncrement i))) t.kTaIncrement
      alphaRem := pixels.foldl (fun v i => v.put i (alphaRemOf (readField .ee m (pixField c c.pix.alphaLo i))
        (readField .ee m (pixField c c.pix.alphaHi i)))) t.alphaRem
      pixOff := pixels.foldl (fun v i => v.put i (readField .ee m (pixField c c.pix.pixOff i))) t.pixOff } := by
  induction pixels generalizing t with
  | nil => rfl
  | cons i pixels ih =>
    rw [List.map_cons, runEffects_cons, ih]
    simp only [List.foldl_cons, eepromEffect, rowPixword]

end

/-- Writing every cell, one after another. -/
theorem Cells.foldl_put_finRange {n : Nat} {α : Type} (v : Fin n → α) (c : Cells n α) :
    (List.finRange n).foldl (fun c i => c.put i (v i)) c = Cells.ofFn v :=
  Cells.ext_get fun i => by rw [Cells.get_foldl_put, if_pos (List.mem_finRange i), Cells.get_ofFn]

/-- The record words of an image leave what DECODE reads. -/
theorem runEffects_eepromRows {c : Config} (hdef : hasDefaults c) (m : Memory) (t : DecodeTemps) :
    runEffects c m eepromRows t = decodeImage c m t := by
  have harr : c.arr = defaultArrayTable := congrArg Config.arr hdef
  change runEffects c m (scalarRows ++ _ ++ _ ++ _ ++ _ ++ _) t = _
  simp only [runEffects_append, runEffects_scalarRows, runEffects_occRow, runEffects_occCol, runEffects_accRow,
    runEffects_accCol, runEffects_pixword, foldl_packedWord (show 24 ≤ 4 * 6 by decide),
    foldl_packedWord (show 32 ≤ 4 * 8 by decide), Cells.foldl_put_finRange]
  rw [decodeImage, decodeScalars_freshTemps hdef, decodePixels, decodeArrays, harr]
  rfl

theorem rowSpace_of_mem_eepromRows : ∀ r ∈ eepromRows, rowSpace r = .ee := by decide +kernel

theorem runRecords_eepromRows {s : State} (hdef : hasDefaults s.cfg) (m : Memory) :
    runRecords m eepromRows s = .next (s.onDec (decodeImage s.cfg m)) := by
  have hrows := runRecords_of_effects (m := m) (s := s)
    (effect := fun r w => { w with dec := eepromEffect s.cfg m r w.dec }) (rows := eepromRows)
    (fun r hr w => exec_rowInstr_eeprom (s := { s with work := w }) hdef m (rowSpace_of_mem_eepromRows r hr)) s.work
  rw [foldl_dec, runEffects_eepromRows hdef] at hrows
  exact hrows

/-- Settles O34: row by row the record words do what DECODE does through the field table, and the default maps and tables leave
no temporary unwritten. -/
theorem decodeIsItsRecordWords : Obligations.DecodeIsItsRecordWords := fun s hdef hvalid hlen =>
  ⟨s.onDec (decodeImage s.cfg s.din), s.runDecode, runRecords_eepromRows hdef s.din,
    exec_decode_of_passes hvalid hlen hdef.decodeConfigWf_eq (.inl rfl), rfl, rfl, rfl⟩

end Sys2Proof.Machine
end

section
/-! COMPENSATE: its errors, what it writes and what it reads (42_compensate.md). -/

namespace Sys2Proof.Machine

/-! ### Its tests -/

/-- A COMPENSATE that passes its tests commits (42_compensate.md rule R190). -/
theorem exec_compensate_of_passes {s : State} (hvalid : s.status.calValid = true)
    (hlen : s.din.len = if s.mode.extended then 1728 else 1664) (hwf : compensateConfigWf s.cfg = true) :
    exec .compensate s = .next s.runCompensate :=
  exec_compensate_of_no_error (compensateError_eq_none hvalid hlen) hwf

/-- Settles O35: the tests stand in the order of the definition. -/
theorem compensateErrorsInOrder : Obligations.CompensateErrorsInOrder := by
  intro s
  refine ⟨fun hvalid => ?_, fun hvalid hshort => ?_, fun hvalid hlong => ?_⟩
  · have herror : compensateError s = some .notCalibrated := by simp [compensateError, hvalid]
    exact (exec_compensate_of_error herror).trans rfl
  · have herror : compensateError s = some .incompleteFrame := by simp [compensateError, frameBytes, hvalid, hshort]
    exact (exec_compensate_of_error herror).trans rfl
  · have herror : compensateError s = some .illegalOperand := by
      simp [compensateError, frameBytes, hvalid, hlong, hlong.le]
    exact (exec_compensate_of_error herror).trans rfl

/-! ### The gate -/

theorem gate_iff (extended : Bool) (subpage : Nat) (i : Pixel) :
    gate extended subpage i = true ↔ extended = false ∨ (i.val / 32 + i.val % 32) % 2 = subpage := by
  rw [gate, Bool.or_eq_true, Bool.not_eq_true', decide_eq_true_iff]
  rfl

@[simp] theorem gate_plain (subpage : Nat) (i : Pixel) : gate false subpage i = true := rfl

theorem gate_zero_eq_not_gate_one (i : Pixel) : gate true 0 i = !gate true 1 i := by
  rw [Bool.eq_iff_iff, Bool.not_eq_true', ← Bool.not_eq_true, gate_iff, gate_iff]
  simp only [Bool.true_eq_false, false_or]
  omega

/-- Settles O37. -/
theorem gateAdmitsHalfTheFrame : Obligations.GateAdmitsHalfTheFrame :=
  ⟨gate_iff, by decide +kernel, by decide +kernel, gate_plain, gate_zero_eq_not_gate_one⟩

/-! ### The formulas -/

/-- Settles O38. -/
theorem frameScalarFormulas : Obligations.FrameScalarFormulas := by
  intro N cal f
  have hshift : shl (zext cal.vdd25) 5 = (cal.vdd25.toNat : ℤ) * 32 := shl_of_nonneg (by decide)
  simp only [frameScalars, stepDV, dvNumerator, hshift]
  exact ⟨rfl, rfl, rfl, rfl⟩

theorem isInf_inf (neg : Bool) : F64.isInf (F64.inf neg) = true := by
  cases neg <;> decide

/-- A quotient by a zero is an infinity or a NaN (42_compensate.md rule R207). -/
theorem div_of_isZero_right {x y : F64} (hy : F64.isZero y = true) :
    F64.isInf (F64.div x y) = true ∨ F64.isNaN (F64.div x y) = true := by
  cases hnan : F64.isNaN x with
  | true => exact .inr (nan_propagates (.inl hnan)).2.2.2.1
  | false =>
    cases hzero : F64.isZero x with
    | true => exact .inr (div_zero_zero hzero hy)
    | false =>
      rw [div_zero_of_not_isZero hnan hzero hy]
      exact .inl (isInf_inf _)

section
variable {x y : F64} (h : F64.isNaN x = true ∨ F64.isNaN y = true)
include h

theorem isNaN_add : F64.isNaN (F64.add x y) = true := (nan_propagates h).1
theorem isNaN_sub : F64.isNaN (F64.sub x y) = true := (nan_propagates h).2.1
theorem isNaN_div : F64.isNaN (F64.div x y) = true := (nan_propagates h).2.2.2.1
theorem isNaN_pow : F64.isNaN (F64.pow x y) = true := (nan_propagates h).2.2.2.2.1

end

/-- Settles O40: the pixel's temperature is a NaN when its radicand is one or is negative. -/
theorem objectTemperatureFormula : Obligations.ObjectTemperatureFormula := by
  intro cal k raw i
  refine ⟨fun N => rfl, div_of_isZero_right, fun hnan hneg hzero => ?_, fun hup => ?_⟩
  · exact isNaN_sub (.inl (pow_quarter_of_neg hnan hzero hneg))
  · refine isNaN_sub (.inl (isNaN_pow (.inl (isNaN_add ?_))))
    obtain hpix | haRef | htAr := hup
    · exact .inl (isNaN_div (.inl hpix))
    · exact .inl (isNaN_div (.inr haRef))
    · exact .inr htAr

/-! ### What it writes -/

/-- The per-frame scalars are those of the header (42_compensate.md rules R194 to R198). -/
theorem frameScalars_readFrame (N : Numerics) (cal : Cal) (c : Config) (extended : Bool) (m : Memory) (t : FrameTemps) :
    frameScalars N cal (readFrame c extended m t) = frameScalars N cal (readHeader c m t) := by
  cases extended <;>
    simp only [readFrame, readRawPixels, readSubpage, rowStatusWord, frameScalars, stepDV, dvNumerator, stepVPtatArt,
      stepGain, if_true, Bool.false_eq_true, if_false]

theorem readRawPixels_subpage (c : Config) (extended : Bool) (m : Memory) (t : FrameTemps) :
    (readRawPixels c extended m t).subpage = t.subpage := by
  rw [readRawPixels]

theorem readRawPixels_get {c : Config} {extended : Bool} {m : Memory} {t : FrameTemps} {i : Pixel}
    (h : gate extended t.subpage i = true) :
    (readRawPixels c extended m t).rawPixel.get i = asSigned 16 (readField .fr m (rawPixelField c i)) := by
  rw [readRawPixels, Cells.get_ofFn, if_pos h]

/-- The gate of a frame that was read is the gate by its status bit (42_compensate.md rules R200, R201). -/
theorem gate_readSubpage (extended : Bool) (m : Memory) (t : FrameTemps) (i : Pixel) :
    gate extended (readSubpage extended m t).subpage i = gate extended ((m.word 832).toNat % 2) i := by
  cases extended with
  | false => rw [gate_plain, gate_plain]
  | true => rfl

/-- A cell of `TO` after step 8, by the frame's own words: the header, the status word and the pixel's word. -/
theorem refresh_readFrame_get (N : Numerics) (c : Config) (extended : Bool) (m : Memory) (t : FrameTemps) (cal : Cal)
    (old : Cells 768 F64) (i : Pixel) :
    (refresh N extended cal (readFrame c extended m t) (frameScalars N cal (readFrame c extended m t)) old).get i =
      if extended = false ∨ (i.val / 32 + i.val % 32) % 2 = (m.word 832).toNat % 2 then
        pixelTo N cal (frameScalars N cal (readHeader c m t)) (asSigned 16 (readField .fr m (rawPixelField c i))) i
      else old.get i := by
  rw [refresh, Cells.get_ofFn, frameScalars_readFrame, readFrame, readRawPixels_subpage]
  simp only [← gate_iff, ← gate_readSubpage extended m (readHeader c m t)]
  split
  next h => rw [readRawPixels_get h]
  next h => rfl

/-- Settles O36. -/
theorem compensateCompletes : Obligations.CompensateCompletes := fun s hvalid hlen hwf =>
  ⟨s.nextTemps, readHeader s.cfg s.din s.work.frm, rfl, rfl, rfl, rfl,
    refresh_readFrame_get s.cfg.numerics s.cfg s.mode.extended s.din s.work.frm s.cal s.tObj,
    (exec_compensate_of_passes hvalid hlen hwf).trans rfl⟩

/-! ### What it reads -/

/-- A COMPENSATE that passed its tests has discarded the frame when it answers, so only the cells of `TO` count. -/
theorem runCompensate_congr {s : State} {m m' : Memory}
    (h : State.nextTemps { s with din := m } = State.nextTemps { s with din := m' }) :
    State.runCompensate { s with din := m } = State.runCompensate { s with din := m' } := by
  simp only [State.runCompensate, State.commitFrame, h]
  rfl

/-- Settles O41: the tests see the length alone, and the frame is read at the header, the gated pixels and the status bit. -/
theorem compensateDependsOnItsWordsOnly : Obligations.CompensateDependsOnItsWordsOnly := by
  intro s m m' hlen hstatus hheader hpixels
  have herror : compensateError { s with din := m } = compensateError { s with din := m' } := by
    simp only [compensateError, hlen]
  have htemps : State.nextTemps { s with din := m } = State.nextTemps { s with din := m' } := by
    simp only [State.nextTemps, readFrame_congr hstatus hheader hpixels]
  obtain ⟨e, he, hraise⟩ | ⟨hnone, hbad, hrefused⟩ | ⟨hnone, hwf, hrun⟩ := execCompensate_cases { s with din := m }
  · rw [exec_compensate, hraise, exec_compensate_of_error (s := { s with din := m' }) (herror.symm.trans he)]
    rfl
  · rw [exec_compensate, hrefused, exec_compensate_of_illFormed (s := { s with din := m' }) (herror.symm.trans hnone) hbad]
  · rw [exec_compensate, hrun, exec_compensate_of_no_error (s := { s with din := m' }) (herror.symm.trans hnone) hwf,
      runCompensate_congr htemps]

end Sys2Proof.Machine
end

section
/-! The temporaries: the record words of a frame leave what COMPENSATE reads (42_compensate.md), and no command reads what an
earlier operation left (10_state.md rules R20, R35, R36). -/

namespace Sys2Proof.Machine

/-! ### The record words of a frame, run one after another -/

/-- What a record word of a frame does to the temporaries, by the field of its address. -/
def frameEffect (c : Config) (m : Memory) (r : RecordRow) (t : FrameTemps) : FrameTemps :=
  match r with
  | .vddRaw => rowVddRaw (readField .fr m (vddRawField c)) t
  | .ambientProxyRaw => rowAmbientProxyRaw (readField .fr m (ambientProxyRawField c)) t
  | .vBe => rowVBe (readField .fr m (vBeField c)) t
  | .gainRam => rowGainRam (readField .fr m (gainRamField c)) t
  | .statusWord => rowStatusWord (readStatusWord m).toNat t
  | .rawPixel i => rowRawPixel i (readField .fr m (rawPixelField c i)) t
  | .w2410 | .w2420 | .w2432 | .w2433 | .w2434 | .w2436 | .w2437 | .w2438 | .w243C | .ptat25 | .eeGain | .offsetAvg
  | .alphaAvg | .occRow _ | .occCol _ | .accRow _ | .accCol _ | .pixword _ => t

theorem exec_rowInstr_frame {s : State} (hfrm : s.cfg.frm = defaultFrameTable) (m : Memory) {r : RecordRow}
    (hr : rowSpace r = .fr) : exec (rowInstr s.cfg m r) s = .next (s.onFrm (frameEffect s.cfg m r)) := by
  unfold frameEffect
  cases r with
  | w2410 | w2420 | w2432 | w2433 | w2434 | w2436 | w2437 | w2438 | w243C | ptat25 | eeGain | offsetAvg | alphaAvg | occRow
  | occCol | accRow | accCol | pixword => cases hr
  | vddRaw | ambientProxyRaw | vBe | gainRam | rawPixel =>
    simp only [vddRawField, ambientProxyRawField, vBeField, gainRamField, rawPixelField, hfrm, defaultFrameTable,
      wholeSigned, readField_whole]
    rfl
  | statusWord =>
    have hword : placed 16 ((readStatusWord m).extractLsb' 1 15) 1 ||| placed 16 ((readStatusWord m).extractLsb' 0 1) 0 =
        readStatusWord m := by
      simp (disch := omega) only [placed_or_placed_extractLsb', placed_extractLsb'_full]
    rw [← hword]
    rfl

/-- The temporaries after the rows of a list. -/
def runFrameEffects (c : Config) (m : Memory) (rows : List RecordRow) (t : FrameTemps) : FrameTemps :=
  rows.foldl (fun t r => frameEffect c m r t) t

section
variable (c : Config) (m : Memory)

/-- The other temporaries stand still. -/
theorem foldl_frm (rows : List RecordRow) (w : Work) :
    rows.foldl (fun (w : Work) r => { w with frm := frameEffect c m r w.frm }) w =
      { w with frm := runFrameEffects c m rows w.frm } :=
  List.foldl_hom (fun d => { w with frm := d }) (init := w.frm) fun _ _ => rfl

theorem runFrameEffects_append (rows rows' : List RecordRow) (t : FrameTemps) :
    runFrameEffects c m (rows ++ rows') t = runFrameEffects c m rows' (runFrameEffects c m rows t) :=
  List.foldl_append

theorem runFrameEffects_header (t : FrameTemps) :
    runFrameEffects c m [.vddRaw, .ambientProxyRaw, .vBe, .gainRam] t = readHeader c m t := rfl

theorem runFrameEffects_status (extended : Bool) (t : FrameTemps) :
    runFrameEffects c m (if extended then [.statusWord] else []) t = readSubpage extended m t := by
  cases extended <;> rfl

theorem runFrameEffects_rawPixel (pixels : List Pixel) (t : FrameTemps) :
    runFrameEffects c m (pixels.map .rawPixel) t =
      { t with rawPixel := pixels.foldl (fun v i => v.put i (asSigned 16 (readField .fr m (rawPixelField c i)))) t.rawPixel } :=
  List.foldl_map.trans (List.foldl_hom (fun v => { t with rawPixel := v }) (init := t.rawPixel) fun _ _ => rfl)

/-- The record words of the gated pixels write the gated cells. -/
theorem foldl_gated_pixels (extended : Bool) (subpage : Nat) (v : Pixel → Int) (old : Cells 768 Int) :
    ((List.finRange 768).filter (gate extended subpage)).foldl (fun c i => c.put i (v i)) old =
      Cells.ofFn fun i => if gate extended subpage i then v i else old.get i :=
  Cells.ext_get fun i => by
    rw [Cells.get_foldl_put, Cells.get_ofFn]
    simp only [List.mem_filter, List.mem_finRange, true_and]

/-- The record words of a frame leave what COMPENSATE reads. -/
theorem runFrameEffects_frameRows (extended : Bool) (t : FrameTemps) :
    runFrameEffects c m (frameRows extended m) t = readFrame c extended m t := by
  rw [frameRows, runFrameEffects_append, runFrameEffects_append, runFrameEffects_header, runFrameEffects_status,
    runFrameEffects_rawPixel, foldl_gated_pixels, readFrame, readRawPixels]
  simp only [gate_readSubpage]
  rfl

end

theorem rowSpace_of_mem_frameRows {extended : Bool} {m : Memory} {r : RecordRow} (h : r ∈ frameRows extended m) :
    rowSpace r = .fr := by
  rw [frameRows, List.mem_append, List.mem_append, List.mem_map] at h
  obtain (hheader | hstatus) | ⟨i, -, rfl⟩ := h
  · revert r
    decide
  · cases extended
    · cases hstatus
    · rw [List.mem_singleton.1 hstatus]
      rfl
  · rfl

theorem runRecords_frameRows {s : State} (hfrm : s.cfg.frm = defaultFrameTable) (extended : Bool) (m : Memory) :
    runRecords m (frameRows extended m) s = .next (s.onFrm (readFrame s.cfg extended m)) := by
  have hrows := runRecords_of_effects (m := m) (s := s)
    (effect := fun r w => { w with frm := frameEffect s.cfg m r w.frm }) (rows := frameRows extended m)
    (fun r hr w => exec_rowInstr_frame (s := { s with work := w }) hfrm m (rowSpace_of_mem_frameRows hr)) s.work
  rw [foldl_frm, runFrameEffects_frameRows] at hrows
  exact hrows

/-- Settles O42: row by row the record words do what COMPENSATE does through the field table. -/
theorem compensateIsItsRecordWords : Obligations.CompensateIsItsRecordWords := fun s hvalid hlen hwf hfrm =>
  ⟨s.onFrm (readFrame s.cfg s.mode.extended s.din), s.runCompensate, runRecords_frameRows hfrm _ _,
    exec_compensate_of_passes hvalid hlen hwf, rfl, rfl⟩

/-! ### What an earlier operation left -/

/-- Every temporary of a DECODE is written before it is read. -/
theorem decodeImage_eq_of_temps (c : Config) (m : Memory) (t t' : DecodeTemps) : decodeImage c m t = decodeImage c m t' := rfl

theorem runDecode_with_work (s : State) (w : Work) :
    State.runDecode { s with work := w } = { s.runDecode with work := w } := by
  have himage := decodeImage_eq_of_temps s.cfg s.din w.dec s.work.dec
  simp only [State.runDecode, himage]
  rfl

/-- A cell of `TO` is computed from the frame alone. -/
theorem nextTemps_with_work (s : State) (w : Work) : State.nextTemps { s with work := w } = s.nextTemps := by
  refine Cells.ext_get fun i => ?_
  simp only [State.nextTemps, refresh_readFrame_get]
  rfl

theorem runCompensate_with_work (s : State) (w : Work) :
    State.runCompensate { s with work := w } = { s.runCompensate with work := w } := by
  simp only [State.runCompensate, State.commitFrame, nextTemps_with_work]
  rfl

theorem extractCommand_with_work (signed : Bool) (width start : Nat) (word : Word) (s : State) (w : Work) :
    extractCommand signed width start word { s with work := w } =
      { extractCommand signed width start word s with work := w } := by
  unfold extractCommand
  split <;> rfl

/-- No test of DECODE reads a temporary. -/
theorem exec_decode_with_work {skip : Bool} {s t : State} (w : Work) (h : exec (.decode skip) s = .next t) :
    exec (.decode skip) { s with work := w } = .next { t with work := w } := by
  obtain ⟨e, herror, htest, hraise⟩ | ⟨-, -, hrefused⟩ | ⟨hnone, hwf, hrun⟩ := execDecode_cases skip s
  · obtain rfl := Host.Outcome.next.inj (hraise.symm.trans h)
    exact exec_decode_of_error (s := { s with work := w }) herror htest
  · cases hrefused.symm.trans h
  · obtain rfl := Host.Outcome.next.inj (hrun.symm.trans h)
    rw [← runDecode_with_work]
    exact exec_decode_of_no_error (s := { s with work := w }) hnone hwf

/-- No test of COMPENSATE reads a temporary. -/
theorem exec_compensate_with_work {s t : State} (w : Work) (h : exec .compensate s = .next t) :
    exec .compensate { s with work := w } = .next { t with work := w } := by
  obtain ⟨e, herror, hraise⟩ | ⟨-, -, hrefused⟩ | ⟨hnone, hwf, hrun⟩ := execCompensate_cases s
  · obtain rfl := Host.Outcome.next.inj (hraise.symm.trans h)
    exact exec_compensate_of_error (s := { s with work := w }) herror
  · cases hrefused.symm.trans h
  · obtain rfl := Host.Outcome.next.inj (hrun.symm.trans h)
    rw [← runCompensate_with_work]
    exact exec_compensate_of_no_error (s := { s with work := w }) hnone hwf

/-- Settles O33: EXTRACT reads no temporary, DECODE writes each of its own before it reads it, and COMPENSATE reads one of an
ungated pixel nowhere. -/
theorem commandsIgnoreOldTemporaries : Obligations.CommandsIgnoreOldTemporaries := by
  intro i s t w hcmd hexec
  have hextract {sg wd st word} (h : extractCommand sg wd st word s = t) :
      extractCommand sg wd st word { s with work := w } = { t with work := w } := by
    rw [extractCommand_with_work, h]
  cases i with
  | extract => exact congrArg Host.Outcome.next (hextract (Host.Outcome.next.inj hexec))
  | sext6 => exact congrArg Host.Outcome.next (hextract (Host.Outcome.next.inj hexec))
  | nibble => exact congrArg Host.Outcome.next (hextract (Host.Outcome.next.inj hexec))
  | decode skip => exact exec_decode_with_work w hexec
  | compensate => exact exec_compensate_with_work w hexec
  | _ => cases hcmd

end Sys2Proof.Machine
end

section
/-! TRACK under the default `NUMERICS` (43_track.md rules R220 to R226): the scan finds the first extreme cell. -/

namespace Sys2Proof.Machine

/-- A comparison of the cells that are no NaN by a key. -/
def ComparesBy (better : F64 → F64 → Bool) (key : F64 → ℤ) : Prop :=
  ∀ x y, better x y = true ↔ F64.isNaN x = false ∧ F64.isNaN y = false ∧ key x < key y

theorem lt_comparesBy : ComparesBy F64.lt F64.key := fun x y => by
  simp [F64.lt, and_assoc]

theorem gt_comparesBy : ComparesBy (fun x y => F64.lt y x) (fun x => -F64.key x) := fun x y => by
  simp [F64.lt, and_comm, and_assoc]

/-- The candidate after the cells 1 to `n`: no NaN, not beaten up to there, and itself better than every earlier cell. -/
structure FirstBest (better : F64 → F64 → Bool) (v : Cells 768 F64) (n : ℕ) (best : Pixel) : Prop where
  not_nan : F64.isNaN (v.get best) = false
  within : best.val ≤ n
  unbeaten : ∀ i : Pixel, i.val ≤ n → better (v.get i) (v.get best) = false
  first : ∀ i, i < best → F64.isNaN (v.get i) = false → better (v.get best) (v.get i) = true

section
variable {better : F64 → F64 → Bool} {key : F64 → ℤ} (h : ComparesBy better key)
include h

theorem ComparesBy.irrefl (x : F64) : better x x = false := by
  rw [← Bool.not_eq_true, h]
  exact fun hx => lt_irrefl _ hx.2.2

theorem ComparesBy.firstBest_scan {v : Cells 768 F64} (h0 : F64.isNaN (v.get 0) = false) {n : ℕ} (hn : n < 768) :
    FirstBest better v n (scan better v n) := by
  induction n with
  | zero =>
    refine ⟨h0, le_rfl, fun i hi => ?_, fun i hi => absurd hi (Nat.not_lt_zero i)⟩
    obtain rfl : i = 0 := Fin.ext (Nat.le_zero.1 hi)
    exact h.irrefl _
  | succ n ih =>
    obtain ⟨hnan, hwithin, hunbeaten, hfirst⟩ := ih (by omega)
    simp only [scan, hn, dite_true]
    generalize scan better v n = best at hnan hwithin hunbeaten hfirst
    have hcell : ∀ i : Pixel, i.val ≤ n + 1 → i.val ≤ n ∨ i = ⟨n + 1, hn⟩ := fun i hi =>
      (Nat.le_succ_iff.1 hi).imp_right Fin.ext
    split
    next hbetter =>
      obtain ⟨hcellnan, -, hkey⟩ := (h _ _).1 hbetter
      refine ⟨hcellnan, le_rfl, fun i hi => ?_, fun i hi hinan => ?_⟩
      · obtain hle | rfl := hcell i hi
        · have hi := hunbeaten i hle
          rw [← Bool.not_eq_true, h] at hi ⊢
          exact fun hbeat => hi ⟨hbeat.1, hnan, hbeat.2.2.trans hkey⟩
        · exact h.irrefl _
      · have hi := hunbeaten i (Nat.lt_succ_iff.1 hi)
        rw [← Bool.not_eq_true, h] at hi
        rw [h]
        exact ⟨hcellnan, hinan, hkey.trans_le (not_lt.1 fun hlt => hi ⟨hinan, hnan, hlt⟩)⟩
    next hnot =>
      refine ⟨hnan, by omega, fun i hi => ?_, hfirst⟩
      obtain hle | rfl := hcell i hi
      · exact hunbeaten i hle
      · exact Bool.eq_false_iff.2 hnot

end

/-- Pixel 0 stays the candidate when no cell is better (43_track.md rule R226). -/
theorem scan_eq_zero {better : F64 → F64 → Bool} {v : Cells 768 F64}
    (h : ∀ i, better (v.get i) (v.get 0) = false) (n : ℕ) :
    scan better v n = 0 := by
  induction n with
  | zero => rfl
  | succ n ih =>
    rw [scan, ih]
    simp only [h, Bool.false_eq_true, if_false, dite_eq_ite, ite_self]

section
variable {v : Cells 768 F64}

theorem firstBest_minIndex (h0 : F64.isNaN (v.get 0) = false) : FirstBest F64.lt v 767 (minIndex .binary64 v) :=
  lt_comparesBy.firstBest_scan h0 (by norm_num)

theorem firstBest_maxIndex (h0 : F64.isNaN (v.get 0) = false) :
    FirstBest (fun x y => F64.lt y x) v 767 (maxIndex .binary64 v) :=
  gt_comparesBy.firstBest_scan h0 (by norm_num)

theorem track_of_pixel_zero (hmin : ∀ i, F64.lt (v.get i) (v.get 0) = false)
    (hmax : ∀ i, F64.lt (v.get 0) (v.get i) = false) :
    (track .binary64 v).min = ⟨0#8, 0#8, v.get 0⟩ ∧ (track .binary64 v).max = ⟨0#8, 0#8, v.get 0⟩ := by
  have hminIndex : minIndex .binary64 v = 0 := scan_eq_zero hmin 767
  have hmaxIndex : maxIndex .binary64 v = 0 := scan_eq_zero (better := fun x y => F64.lt y x) hmax 767
  rw [track_min, track_max, hminIndex, hmaxIndex]
  exact ⟨rfl, rfl⟩

end

/-- Settles O43: the candidate of a scan is the first best cell looked at. -/
theorem trackFindsFirstExtremes : Obligations.TrackFindsFirstExtremes := by
  intro v h0
  have hmin := firstBest_minIndex h0
  have hmax := firstBest_maxIndex h0
  exact ⟨minIndex .binary64 v, maxIndex .binary64 v, hmin.not_nan, hmax.not_nan,
    fun i => hmin.unbeaten i (Nat.le_of_lt_succ i.isLt), hmin.first, fun i => hmax.unbeaten i (Nat.le_of_lt_succ i.isLt),
    hmax.first, rfl, rfl⟩

/-- Settles O45: equal cells and a NaN in cell 0 make no cell better than cell 0. -/
theorem trackSpecialFrames : Obligations.TrackSpecialFrames := by
  intro v
  refine ⟨fun heq => ?_, fun hnan => ?_, fun h0 => ⟨(firstBest_minIndex h0).not_nan, (firstBest_maxIndex h0).not_nan⟩⟩
  · have hcell : ∀ i, F64.lt (v.get i) (v.get 0) = false ∧ F64.lt (v.get 0) (v.get i) = false := fun i => by
      rw [heq i]
      exact ⟨lt_comparesBy.irrefl _, lt_comparesBy.irrefl _⟩
    exact track_of_pixel_zero (fun i => (hcell i).1) fun i => (hcell i).2
  · exact track_of_pixel_zero (fun i => (nan_propagates (.inr hnan)).2.2.2.2.2) fun i => (nan_propagates (.inl hnan)).2.2.2.2.2

end Sys2Proof.Machine
end
